-- ==== Sys2Proof/Word.lean ====
section
/-! DEFINITION. The machine's units of data: the byte, the byte sequence and the 8-byte block
(`00_scope.md` R7, R11), and the 32-bit command word (`30_encoding.md` R72). -/

namespace Sys2Proof

/-- A byte, an integer 0 to 255 (R11). -/
abbrev Byte := BitVec 8

/-- The spec's `Bytes`: a finite byte sequence, index 0 first (R11). -/
abbrev Bytes := List Byte

/-- The command word `CMDW` (R72). -/
abbrev CmdWord := BitVec 32

/-- The spec's `Bytes8`: exactly eight bytes, `b0` first (R7, R11, R26). No numeric meaning. -/
@[ext]
structure Block where
  b0 : Byte
  b1 : Byte
  b2 : Byte
  b3 : Byte
  b4 : Byte
  b5 : Byte
  b6 : Byte
  b7 : Byte
deriving DecidableEq, Repr, Inhabited

/-- `zeros(8)`. -/
def Block.zeros : Block := ⟨0, 0, 0, 0, 0, 0, 0, 0⟩

end Sys2Proof
end

