-- ==== Sys2Proof/Config.lean ====
section
/-! DEFINITION. The open parameters of the hardware (`00_scope.md` R8; `92_eei_decisions.md`,
"Open parameters, collected"). What the spec leaves OPEN has no body here, so that no proof can see
a value of it; the data rules take the parameters as an argument (`Params`), so that they can also be
evaluated on a primitive given by hand. -/

namespace Sys2Proof

/-- `PAD_POLICY` (R8): whether `DECRYPT` validates the padding it strips (R113, R114). -/
inductive PadPolicy where
  | lenient
  | strict
deriving DecidableEq, Repr, Inhabited

/-- The parameters a data command consults (R8): the primitive's two directions
(key, block, result) and the pad policy. -/
structure Params where
  desE : Block → Block → Block
  desD : Block → Block → Block
  padPolicy : PadPolicy

/-- What R10 (b) and (c) assume of the primitive: the two directions undo each other under every key.
R10 (a), total and without history, is what being a function says. -/
structure Params.Inverse (P : Params) : Prop where
  dec_enc : ∀ k b, P.desD k (P.desE k b) = b
  enc_dec : ∀ k c, P.desE k (P.desD k c) = c

/-- The external single-DES primitive (R10): for every key a permutation of the blocks, nothing else
known. No body: an uninterpreted parameter (DEDUCED, log 5). -/
opaque Config.des : Block → Equiv.Perm Block

/-- `PAD_POLICY` of this instance of the hardware (R8, D15). No body: OPEN (log 6). -/
opaque Config.padPolicy : PadPolicy

/-- `PAYLOAD_MAX` (R8, D23): unbounded, the spec's default (DESIGN CHOICE, log 7). -/
def Config.payloadMax : Option Nat := none

/-- The parameters the machine's data commands run with. -/
def Config.params : Params where
  desE := fun k b => Config.des k b
  desD := fun k c => (Config.des k).symm c
  padPolicy := Config.padPolicy

/-- The machine's primitive has the properties R10 asks of it. -/
theorem Config.params_inverse : Config.params.Inverse where
  dec_enc := fun k b => (Config.des k).symm_apply_apply b
  enc_dec := fun k c => (Config.des k).apply_symm_apply c

end Sys2Proof
end

