-- ==== Sys2Proof/Syntax.lean ====
section
/-! DEFINITION. The commands: one constructor per row of the opcode table (`30_encoding.md` R74), in the
table's order, and the command as the host presents it, `(CMDW, IN)` (R70). -/

namespace Sys2Proof

/-- A legal command with its operands. A format A command carries its `ARG` (R75), a format P command its
payload whole (R76), a format N command nothing (R73). -/
inductive Instr where
  | config (arg : Byte)
  | setkey (raw : Bytes)
  | setiv (iv : Bytes)
  | enpad
  | dispad
  | encont
  | discont
  | encrypt (data : Bytes)
  | decrypt (data : Bytes)
  | bkhint (hint : Bytes)
deriving DecidableEq, Repr

/-- What the host presents in one transaction (R70): the command word `CMDW` and the input payload `IN`
(`20_memory.md` R50). Any word and any payload; decoding tells whether it is legal. -/
structure Command where
  cmdw : CmdWord
  payload : Bytes
deriving DecidableEq, Repr

end Sys2Proof
end

