-- ==== Sys2Proof/WellFormed.lean ====
section
/-! DEFINITION. The one check an instruction term can fail: a payload longer than `PAYLOAD_MAX`
(`00_scope.md` R8, `20_memory.md` R50). Every other restriction of R73 is kept by the type `Instr` itself: a
format N or A command has no payload to be non-empty, and no command but `CONFIG` has an `ARG`. That an IV has
8 bytes is NO well-formedness: `SETIV` with another length is a legal command that ends with `ERR_IVLEN`. -/

namespace Sys2Proof

/-- The payload a command carries; empty for the formats A and N (R73). -/
def Instr.payload : Instr → Bytes
  | .config _ => []
  | .setkey raw => raw
  | .setiv iv => iv
  | .enpad => []
  | .dispad => []
  | .encont => []
  | .discont => []
  | .encrypt data => data
  | .decrypt data => data
  | .bkhint hint => hint

/-- The payload is within a bound, if there is one (R50). -/
def Instr.fits (max : Option Nat) (i : Instr) : Bool :=
  match max with
  | none => true
  | some n => decide (i.payload.length ≤ n)

/-- Well-formed for this machine: within its `PAYLOAD_MAX` (unbounded: D23, log 7). -/
def Instr.wellFormed (i : Instr) : Bool := i.fits Config.payloadMax

end Sys2Proof
end

