-- ==== Sys2Proof/Decode.lean ====
section
/-! DEFINITION. Decoding a command `(CMDW, IN)` (`30_encoding.md` R72 to R77, R80, R81), total and rejecting by
name; the encoder, written from the same tables; and the opcode map of R74 as rows of match and mask. -/

namespace Sys2Proof

/-- `OPC = CMDW[7:0]` (R72). -/
def CmdWord.opc (w : CmdWord) : BitVec 8 := w.extractLsb' 0 8

/-- `ARG = CMDW[15:8]` (R72). -/
def CmdWord.arg (w : CmdWord) : BitVec 8 := w.extractLsb' 8 8

/-- `RSV = CMDW[31:16]` (R72). -/
def CmdWord.rsv (w : CmdWord) : BitVec 16 := w.extractLsb' 16 16

/-- The word with these three fields: `RSV` from bit 16, `ARG` from bit 8, `OPC` from bit 0 (R72). -/
def CmdWord.ofFields (rsv : BitVec 16) (arg opc : BitVec 8) : CmdWord :=
  BitVec.ofNat 32 (rsv.toNat * 2 ^ 16 + arg.toNat * 2 ^ 8 + opc.toNat)

/-- Why a command is illegal: the four tests of R77, in their order. -/
inductive Illegal where
  /-- R77 (a): `RSV` is not zero. -/
  | reservedBits
  /-- R77 (b): `OPC` is unassigned. -/
  | unassignedOpcode
  /-- R77 (c): `ARG` is not zero on a command other than `CONFIG`. -/
  | strayArgument
  /-- R77 (d): a payload on a command of format N or A. -/
  | strayPayload
deriving DecidableEq, Repr

/-- A command without payload (formats N and A): R77 (d). -/
def noPayload (i : Instr) (payload : Bytes) : Except Illegal Instr :=
  match payload with
  | [] => .ok i
  | _ :: _ => .error .strayPayload

/-- The row of R74 with an assigned `OPC`, on its operands (R75, R76); `none` for an unassigned one. -/
def instrOf (arg opc : BitVec 8) (payload : Bytes) : Option (Except Illegal Instr) :=
  if opc = 0x01 then some (noPayload (.config arg) payload)
  else if opc = 0x02 then some (.ok (.setkey payload))
  else if opc = 0x03 then some (.ok (.setiv payload))
  else if opc = 0x04 then some (noPayload .enpad payload)
  else if opc = 0x05 then some (noPayload .dispad payload)
  else if opc = 0x06 then some (noPayload .encont payload)
  else if opc = 0x07 then some (noPayload .discont payload)
  else if opc = 0x08 then some (.ok (.encrypt payload))
  else if opc = 0x09 then some (.ok (.decrypt payload))
  else if opc = 0x0A then some (.ok (.bkhint payload))
  else none

/-- The decoding procedure of R81 on the fields of the word: the tests of R77 in order, then the row of R74 with this
`OPC`. The payload test (d) belongs to the row, and comes last. -/
def decodeFields (rsv : BitVec 16) (arg opc : BitVec 8) (payload : Bytes) : Except Illegal Instr :=
  if rsv ≠ 0 then .error .reservedBits
  else
    match instrOf arg opc payload with
    | none => .error .unassignedOpcode
    | some r => if opc ≠ 0x01 ∧ arg ≠ 0 then .error .strayArgument else r

/-- The decoding procedure of R81. -/
def decode (c : Command) : Except Illegal Instr :=
  decodeFields (CmdWord.rsv c.cmdw) (CmdWord.arg c.cmdw) (CmdWord.opc c.cmdw) c.payload

/-! ## Encoding -/

/-- The operation code of a command (R74). -/
def Instr.opcode : Instr → BitVec 8
  | .config _ => 0x01
  | .setkey _ => 0x02
  | .setiv _ => 0x03
  | .enpad => 0x04
  | .dispad => 0x05
  | .encont => 0x06
  | .discont => 0x07
  | .encrypt _ => 0x08
  | .decrypt _ => 0x09
  | .bkhint _ => 0x0A

/-- The `ARG` field of a command: the mode code for `CONFIG`, 0 for every other (R72). -/
def Instr.argField : Instr → BitVec 8
  | .config arg => arg
  | .setkey _ => 0
  | .setiv _ => 0
  | .enpad => 0
  | .dispad => 0
  | .encont => 0
  | .discont => 0
  | .encrypt _ => 0
  | .decrypt _ => 0
  | .bkhint _ => 0

/-- The command the host presents for an instruction (R72 to R76). -/
def encode (i : Instr) : Command where
  cmdw := CmdWord.ofFields 0 i.argField i.opcode
  payload := i.payload

/-! ## The opcode map as rows (R74) -/

/-- Which operands a format uses (R73). -/
inductive Format where
  | n
  | a
  | p
deriving DecidableEq, Repr

/-- One row of the opcode map (R74): a word `w` selects it when `w &&& mask = pattern`. -/
structure OpcodeRow where
  mnemonic : String
  format : Format
  pattern : CmdWord
  mask : CmdWord
deriving DecidableEq, Repr

/-- A word selects a row (R74). -/
def OpcodeRow.selects (r : OpcodeRow) (w : CmdWord) : Bool := w &&& r.mask == r.pattern

/-- The format lets a command carry this payload (R73). -/
def OpcodeRow.allows (r : OpcodeRow) (payload : Bytes) : Bool :=
  match r.format with
  | .n => payload.isEmpty
  | .a => payload.isEmpty
  | .p => true

/-- The opcode map of R74. -/
def opcodeMap : List OpcodeRow :=
  [⟨"CONFIG", .a, 0x00000001, 0xFFFF00FF⟩,
   ⟨"SETKEY", .p, 0x00000002, 0xFFFFFFFF⟩,
   ⟨"SETIV", .p, 0x00000003, 0xFFFFFFFF⟩,
   ⟨"ENPAD", .n, 0x00000004, 0xFFFFFFFF⟩,
   ⟨"DISPAD", .n, 0x00000005, 0xFFFFFFFF⟩,
   ⟨"ENCONT", .n, 0x00000006, 0xFFFFFFFF⟩,
   ⟨"DISCONT", .n, 0x00000007, 0xFFFFFFFF⟩,
   ⟨"ENCRYPT", .p, 0x00000008, 0xFFFFFFFF⟩,
   ⟨"DECRYPT", .p, 0x00000009, 0xFFFFFFFF⟩,
   ⟨"BKHINT", .p, 0x0000000A, 0xFFFFFFFF⟩]

/-- The mnemonic of a command (R74). -/
def Instr.mnemonic : Instr → String
  | .config _ => "CONFIG"
  | .setkey _ => "SETKEY"
  | .setiv _ => "SETIV"
  | .enpad => "ENPAD"
  | .dispad => "DISPAD"
  | .encont => "ENCONT"
  | .discont => "DISCONT"
  | .encrypt _ => "ENCRYPT"
  | .decrypt _ => "DECRYPT"
  | .bkhint _ => "BKHINT"

/-! ## Words numbered as the opcode table numbers them -/

/-- The command whose word has the `nbits` low bits of `w`, every bit above them 0, and whose payload, to which
the table gives no bits, is empty (the end-of-payload mark alone, R71). The word is delivered whole on the
command port and has no byte order (R53, R72). DESIGN CHOICE for the payload, log 10. -/
def tableCommand (nbits w : Nat) : Command where
  cmdw := BitVec.ofNat 32 (w % 2 ^ nbits)
  payload := []

/-- The instruction the decoder reads from a word of the opcode table. -/
def decodeTableWord (nbits w : Nat) : Option Instr :=
  match decode (tableCommand nbits w) with
  | .ok i => some i
  | .error _ => none

end Sys2Proof
end

