-- ==== Sys2Proof/Machine/State.lean ====
section
/-! DEFINITION. The state of the engine as plain data: every item of the state table of `10_state.md` R21,
`cmdidx` (R22), and the two ends of the host interface (`30_encoding.md` R70); the reset state (R38, R180);
the reasons a step can stop. -/

namespace Sys2Proof.Machine

/-- `MODE` (R29): exactly one of three modes. -/
inductive Mode where
  | ecb
  | cbc
  | legacy
deriving DecidableEq, Repr, Inhabited

/-- `KEYCLASS` (R27): the outcome of the last key load. -/
inductive KeyClass where
  | none
  | single
  | triple
deriving DecidableEq, Repr, Inhabited

/-- The index 1 to 3 of the register files `K`, `SENC`, `SDEC` (R14, R23, R33). -/
inductive Stage where
  | one
  | two
  | three
deriving DecidableEq, Repr, Inhabited

/-- The error causes of `60_exceptions.md` R161. An error is no stop of the machine: the command completes with
an error status (R160, R166). -/
inductive CmdError where
  /-- `ERR_ILLEGAL` (R162). -/
  | illegal
  /-- `ERR_NOKEY` (R163). -/
  | nokey
  /-- `ERR_IVLEN` (R164). -/
  | ivlen
  /-- `ERR_PAD` (R165). -/
  | pad
deriving DecidableEq, Repr, Inhabited

/-- A response `(STATUS, OUT)` (R70): the status byte on `STAT` and the output payload on `DOUT`. -/
structure Response where
  status : Byte
  out : Bytes
deriving DecidableEq, Repr

/-- What the host can do to the engine (R70, R71, R180). -/
inductive HostEvent where
  /-- Present a command and wait for its response. -/
  | command (c : Command)
  /-- Assert `RESET`; the argument is the command in progress that it abandons, if there is one (R180). -/
  | reset (abandoned : Option Command)
deriving DecidableEq, Repr

/-- The state. The first sixteen fields are the architectural state of R21, `cmdidx` the counter of R22;
`pending` and `response` are the model's own, for the two directions of the host interface (logs 1, 14). -/
@[ext]
structure State where
  /-- `MODE` (R29). -/
  mode : Mode
  /-- `PADEN` (R30). -/
  paden : Bool
  /-- `CONTEN` (R31). -/
  conten : Bool
  /-- `KEYCLASS` (R27). -/
  keyclass : KeyClass
  /-- `K[1]` (R23). -/
  k1 : Block
  /-- `K[2]` (R23). -/
  k2 : Block
  /-- `K[3]` (R23). -/
  k3 : Block
  /-- `BASEIV` (R24). -/
  baseiv : Block
  /-- `ENCIV` (R25). -/
  enciv : Block
  /-- `DECIV` (R25). -/
  deciv : Block
  /-- `SENC[1]` (R33). -/
  senc1 : Block
  /-- `SENC[2]` (R33). -/
  senc2 : Block
  /-- `SENC[3]` (R33). -/
  senc3 : Block
  /-- `SDEC[1]` (R33). -/
  sdec1 : Block
  /-- `SDEC[2]` (R33). -/
  sdec2 : Block
  /-- `SDEC[3]` (R33). -/
  sdec3 : Block
  /-- `cmdidx` (R22): commands completed since reset; read by no rule. -/
  cmdidx : Nat
  /-- What the host does next, first event first (R59, R70). -/
  pending : List HostEvent
  /-- The response of the last completed command; none since reset (R70, R180). Read by no meaning. -/
  response : Option Response
deriving DecidableEq, Repr

/-- The machine right after reset (R38, R180), with nothing presented by the host. The spec gives `K[1..3]` no
reset value; the zeros are the model's (DESIGN CHOICE, log 3). -/
def State.reset : State where
  mode := .cbc
  paden := true
  conten := false
  keyclass := .none
  k1 := Block.zeros
  k2 := Block.zeros
  k3 := Block.zeros
  baseiv := Block.zeros
  enciv := Block.zeros
  deciv := Block.zeros
  senc1 := Block.zeros
  senc2 := Block.zeros
  senc3 := Block.zeros
  sdec1 := Block.zeros
  sdec2 := Block.zeros
  sdec3 := Block.zeros
  cmdidx := 0
  pending := []
  response := none

/-- The reasons a step can fault: there is none. R160: every command ends with status `OK` or with an error status,
"There is no third outcome: no hang, no partial result, no asynchronous report." -/
inductive Fault where
deriving DecidableEq, Repr

/-- The reasons a step can be refused. -/
inductive Refusal where
  /-- An arm of `exec` for an instruction that has no meaning yet; safe (the machine stops where the hardware goes on).
  No arm of this model raises it. -/
  | notModelled (mnemonic : String)
deriving DecidableEq, Repr

end Sys2Proof.Machine
end

