-- ==== Sys2Proof/Machine/Flags.lean ====
section
/-! DEFINITION. The conditions the control fields give (`MODE`, `PADEN`, `CONTEN`, `KEYCLASS`), the 6-bit view
`CTRL` of them (`10_state.md` R28) and the status codes (`30_encoding.md` R78). There are no condition codes (R32). -/

namespace Sys2Proof.Machine

/-- legacy-active: `MODE = LEGACY and KEYCLASS = TRIPLE` (R19, R130). -/
def legacyActive (s : State) : Bool := s.mode == .legacy && s.keyclass == .triple

/-- `cbcmode` of R130: `MODE = CBC`, or `MODE = LEGACY` with `KEYCLASS = SINGLE`. -/
def cbcMode (s : State) : Bool := s.mode == .cbc || (s.mode == .legacy && s.keyclass == .single)

/-- When `pad` and `unpad` apply: `PADEN = 1` and not legacy-active (R111). -/
def paddingApplies (s : State) : Bool := s.paden && !legacyActive s

/-- The IV an `ENCRYPT` in CBC starts from (R120). -/
def encStart (s : State) : Block := if s.conten then s.enciv else s.baseiv

/-- The IV a `DECRYPT` in CBC starts from (R120). -/
def decStart (s : State) : Block := if s.conten then s.deciv else s.baseiv

/-- The code of a mode in `CTRL[1:0]` (R28). -/
def Mode.code : Mode → BitVec 2
  | .ecb => 1
  | .cbc => 2
  | .legacy => 3

/-- The code of a key class in `CTRL[5:4]` (R27, R28). -/
def KeyClass.code : KeyClass → BitVec 2
  | .none => 0
  | .single => 1
  | .triple => 2

/-- The control register `CTRL` of R28: `KEYCLASS`, `CONTEN`, `PADEN`, `MODE`, from the most significant bit.
A view, no storage of its own. -/
def ctrl (s : State) : BitVec 6 :=
  s.keyclass.code ++ BitVec.ofBool s.conten ++ BitVec.ofBool s.paden ++ s.mode.code

/-- Status `OK` (R78). -/
def statusOk : Byte := 0x00

/-- The status code of an error (R78, R161). -/
def CmdError.code : CmdError → Byte
  | .illegal => 0x01
  | .nokey => 0x02
  | .ivlen => 0x03
  | .pad => 0x04

end Sys2Proof.Machine
end

