-- ==== Sys2Proof/Machine/Operands.lean ====
section
/-! DEFINITION. The operands: byte sequences and blocks (`00_scope.md` R11, R12, `20_memory.md` R53) and the mode
argument of `CONFIG` (`30_encoding.md` R75). -/

namespace Sys2Proof.Machine

/-- `rep(v, n)`: `n` bytes of value `v` (R11). -/
def rep (v : Byte) (n : Nat) : Bytes := List.replicate n v

/-- `zeros(n)` (R11). -/
def zeros (n : Nat) : Bytes := rep 0 n

/-- The eight bytes of a block in stream order (R53). -/
def blockBytes (b : Block) : Bytes := [b.b0, b.b1, b.b2, b.b3, b.b4, b.b5, b.b6, b.b7]

/-- `a ^ b` on blocks, byte by byte (R11, R53). -/
def xorBlock (a b : Block) : Block where
  b0 := a.b0 ^^^ b.b0
  b1 := a.b1 ^^^ b.b1
  b2 := a.b2 ^^^ b.b2
  b3 := a.b3 ^^^ b.b3
  b4 := a.b4 ^^^ b.b4
  b5 := a.b5 ^^^ b.b5
  b6 := a.b6 ^^^ b.b6
  b7 := a.b7 ^^^ b.b7

/-- The block whose bytes are the first eight of a sequence. The rules use it on sequences of eight bytes; on a
shorter one the missing bytes are 0 (log 13). -/
def blockOf (d : Bytes) : Block where
  b0 := d.getD 0 0
  b1 := d.getD 1 0
  b2 := d.getD 2 0
  b3 := d.getD 3 0
  b4 := d.getD 4 0
  b5 := d.getD 5 0
  b6 := d.getD 6 0
  b7 := d.getD 7 0

/-- The blocks `blk(m, 0), blk(m, 1), ...` of a sequence whose length is a multiple of 8 (R11, R53). Bytes after the
last whole block are in no block (log 13). -/
def toBlocks : Bytes → List Block
  | a0 :: a1 :: a2 :: a3 :: a4 :: a5 :: a6 :: a7 :: rest => ⟨a0, a1, a2, a3, a4, a5, a6, a7⟩ :: toBlocks rest
  | [] => []
  | [_] => []
  | [_, _] => []
  | [_, _, _] => []
  | [_, _, _, _] => []
  | [_, _, _, _, _] => []
  | [_, _, _, _, _, _] => []
  | [_, _, _, _, _, _, _] => []

/-- The blocks written out one after the other (`MemWrite` to the end of `OUT`, R15, R56). -/
def ofBlocks : List Block → Bytes
  | [] => []
  | b :: bs => blockBytes b ++ ofBlocks bs

/-- The 64-bit view of a block, byte 0 most significant (R12); the form a block has on the port `PRIM` (R71). -/
def blockView (b : Block) : BitVec 64 :=
  BitVec.ofNat 64 (b.b0.toNat * 2 ^ 56 + b.b1.toNat * 2 ^ 48 + b.b2.toNat * 2 ^ 40 + b.b3.toNat * 2 ^ 32 +
    b.b4.toNat * 2 ^ 24 + b.b5.toNat * 2 ^ 16 + b.b6.toNat * 2 ^ 8 + b.b7.toNat)

/-- The block with a given 64-bit view: `b[0] = v[63:56]`, ..., `b[7] = v[7:0]` (R12). -/
def blockOfView (v : BitVec 64) : Block where
  b0 := v.extractLsb' 56 8
  b1 := v.extractLsb' 48 8
  b2 := v.extractLsb' 40 8
  b3 := v.extractLsb' 32 8
  b4 := v.extractLsb' 24 8
  b5 := v.extractLsb' 16 8
  b6 := v.extractLsb' 8 8
  b7 := v.extractLsb' 0 8

/-- The mode a `CONFIG` argument selects (R75): every unassigned code is `CBC`. -/
def modeOfArg (arg : Byte) : Mode :=
  if arg = 0x01 then .ecb else if arg = 0x03 then .legacy else .cbc

end Sys2Proof.Machine
end

