-- ==== Sys2Proof/Machine/Ops.lean ====
section
/-! DEFINITION. The named operations over the registers, how a command ends (with `OK`, or by RAISING AN ERROR, the one
shared operation of `60_exceptions.md` R166), and the chaining loops that the CBC rules and the LEGACY stages share. -/

namespace Sys2Proof.Machine

/-! ## The register files -/

/-- `K[i]` (R14, R23). -/
def State.key (s : State) : Stage → Block
  | .one => s.k1
  | .two => s.k2
  | .three => s.k3

/-- `SENC[i]` (R33). -/
def State.senc (s : State) : Stage → Block
  | .one => s.senc1
  | .two => s.senc2
  | .three => s.senc3

/-- `SDEC[i]` (R33). -/
def State.sdec (s : State) : Stage → Block
  | .one => s.sdec1
  | .two => s.sdec2
  | .three => s.sdec3

/-- `SENC[i] <- v` (R14). -/
def State.setSenc (s : State) (i : Stage) (v : Block) : State :=
  match i with
  | .one => { s with senc1 := v }
  | .two => { s with senc2 := v }
  | .three => { s with senc3 := v }

/-- `SDEC[i] <- v` (R14). -/
def State.setSdec (s : State) (i : Stage) (v : Block) : State :=
  match i with
  | .one => { s with sdec1 := v }
  | .two => { s with sdec2 := v }
  | .three => { s with sdec3 := v }

/-! ## The other registers -/

/-- `ENCIV <- v`. -/
def State.setEnciv (s : State) (v : Block) : State := { s with enciv := v }

/-- `DECIV <- v`. -/
def State.setDeciv (s : State) (v : Block) : State := { s with deciv := v }

/-- `PADEN <- v`. -/
def State.setPaden (s : State) (v : Bool) : State := { s with paden := v }

/-- `CONTEN <- v`. -/
def State.setConten (s : State) (v : Bool) : State := { s with conten := v }

/-- `KEYCLASS <- SINGLE ; K[1] <- k` (R101): `K[2]` and `K[3]` are not written, they become unread (log 4). -/
def State.loadSingle (s : State) (k : Block) : State := { s with keyclass := .single, k1 := k }

/-- `KEYCLASS <- TRIPLE ; K[1] <- a ; K[2] <- b ; K[3] <- c` (R101). -/
def State.loadTriple (s : State) (a b c : Block) : State :=
  { s with keyclass := .triple, k1 := a, k2 := b, k3 := c }

/-- `BASEIV <- v ; ENCIV <- v ; DECIV <- v` (R121). -/
def State.loadIv (s : State) (v : Block) : State := { s with baseiv := v, enciv := v, deciv := v }

/-- `ENCIV <- BASEIV ; DECIV <- BASEIV` (R123). -/
def State.rewind (s : State) : State := { s with enciv := s.baseiv, deciv := s.baseiv }

/-- The construction state in a mode (R90): the reset state except for `MODE`. `cmdidx` goes on counting (R182, log 9)
and the host's side of the interface is untouched. `K[1..3]`, which become unread, are at their reset value (log 4). -/
def State.construct (s : State) (m : Mode) : State :=
  { State.reset with mode := m, cmdidx := s.cmdidx, pending := s.pending, response := s.response }

/-! ## The host interface -/

/-- The host presents a command as the very next thing the engine sees (R70). -/
def State.present (s : State) (c : Command) : State := { s with pending := .command c :: s.pending }

/-- What the host does after its next event. -/
def State.setPending (s : State) (es : List HostEvent) : State := { s with pending := es }

/-- The reset event (R180): the reset state, no response; what the host does afterwards is the host's. -/
def State.resetEvent (s : State) : State := { State.reset with pending := s.pending }

/-! ## How a command ends -/

/-- Completion with status `OK` and output `OUT`: the response is delivered and `cmdidx` advances (R22, R160). -/
def State.finish (s : State) (out : Bytes) : State :=
  { s with cmdidx := s.cmdidx + 1, response := some ⟨statusOk, out⟩ }

/-- RAISING AN ERROR (R16, R166): `STATUS` is the error code, `OUT` is empty, every register is as it was before the
command, nothing records the error, `cmdidx` advances. There is nothing to return from (R168). -/
def State.raiseError (s : State) (e : CmdError) : State :=
  { s with cmdidx := s.cmdidx + 1, response := some ⟨e.code, []⟩ }

/-- What the rule of a command computes: an error, or the registers it leaves and its output payload. -/
abbrev Result := Except CmdError (State × Bytes)

/-- The end of a command that began in `s` (R160): with `OK`, having done what its rule says, or with an error status,
having done nothing. -/
def complete (s : State) (r : Result) : Host.Outcome State Fault Refusal :=
  match r with
  | .ok (t, out) => .next (t.finish out)
  | .error e => .next (s.raiseError e)

/-! ## The chaining loops (R135, R138, R151) -/

/-- A CBC encryption loop over a block transform, from the running value `xor`: the ciphertext blocks and the final
running value (R135, R151 `StageEncrypt`). -/
def cbcEncryptLoop (f : Block → Block) : Block → List Block → List Block × Block
  | xor, [] => ([], xor)
  | xor, p :: ps =>
    let c := f (xorBlock p xor)
    let r := cbcEncryptLoop f c ps
    (c :: r.1, r.2)

/-- A CBC decryption loop over a block transform, from the running value `xor`: the plaintext blocks and the final
running value, which is the last ciphertext block (R138, R151 `StageDecrypt`). -/
def cbcDecryptLoop (f : Block → Block) : Block → List Block → List Block × Block
  | xor, [] => ([], xor)
  | xor, c :: cs =>
    let r := cbcDecryptLoop f c cs
    (xorBlock (f c) xor :: r.1, r.2)

end Sys2Proof.Machine
end

