-- ==== Sys2Proof/Machine/ChainState.lean ====
section
/-! DEFINITION. The ChainState commands of `43_chainstate.md`: `SETIV`, `ENCONT`, `DISCONT`. -/

namespace Sys2Proof.Machine

/-- The rule of `SETIV` (R121): exactly 8 bytes, or `ERR_IVLEN`. -/
def setivBody (iv : Bytes) (s : State) : Result :=
  if iv.length ≠ 8 then .error .ivlen else .ok (s.loadIv (blockOf iv), [])

/-- `SETIV` (R121). -/
def execSetiv (iv : Bytes) (s : State) : Host.Outcome State Fault Refusal :=
  complete s (setivBody iv s)

/-- `ENCONT` (R122): the slots keep their values. -/
def execEncont (s : State) : Host.Outcome State Fault Refusal :=
  complete s (.ok (s.setConten true, []))

/-- `DISCONT` (R123): both slots back to the base IV. -/
def execDiscont (s : State) : Host.Outcome State Fault Refusal :=
  complete s (.ok ((s.setConten false).rewind, []))

end Sys2Proof.Machine
end

