-- ==== Sys2Proof/Machine/Control.lean ====
section
/-! DEFINITION. The control commands of `40_control.md`: `CONFIG`, `ENPAD`, `DISPAD`, `BKHINT`. -/

namespace Sys2Proof.Machine

/-- `CONFIG` (R90): the construction state in the mode the argument selects. -/
def execConfig (arg : Byte) (s : State) : Host.Outcome State Fault Refusal :=
  complete s (.ok (s.construct (modeOfArg arg), []))

/-- `ENPAD` (R91). -/
def execEnpad (s : State) : Host.Outcome State Fault Refusal :=
  complete s (.ok (s.setPaden true, []))

/-- `DISPAD` (R92). -/
def execDispad (s : State) : Host.Outcome State Fault Refusal :=
  complete s (.ok (s.setPaden false, []))

/-- `BKHINT` (R79, R95): a no-op, whatever its payload. -/
def execBkhint (_hint : Bytes) (s : State) : Host.Outcome State Fault Refusal :=
  complete s (.ok (s, []))

end Sys2Proof.Machine
end

