-- ==== Sys2Proof/Machine/KeyScheduler.lean ====
section
/-! DEFINITION. The KeyScheduler and `SETKEY` (`41_key_scheduler.md`). -/

namespace Sys2Proof.Machine

/-- What `deriveSubKeys` returns (R100): a short key gives one sub-key, a long key three. -/
inductive SubKeys where
  | single (k1 : Block)
  | triple (k1 k2 k3 : Block)
deriving DecidableEq, Repr

/-- The 24-byte key buffer of a long key (R100): truncated to 24 bytes, zero-padded on the right to 24, and in the
two-key form (at most 16 bytes) bytes 16 to 23 overwritten with bytes 0 to 7. -/
def keyBuffer (raw : Bytes) : Bytes :=
  let b := raw.take 24 ++ zeros (24 - min raw.length 24)
  if raw.length ≤ 16 then b.take 16 ++ b.take 8 else b

/-- `deriveSubKeys(raw)` (R100). -/
def deriveSubKeys (raw : Bytes) : SubKeys :=
  if raw.length ≤ 8 then .single (blockOf (raw ++ zeros (8 - raw.length)))
  else
    let b := keyBuffer raw
    .triple (blockOf (b.take 8)) (blockOf ((b.drop 8).take 8)) (blockOf ((b.drop 16).take 8))

/-- The registers `SETKEY` writes (R101). -/
def loadKey (k : SubKeys) (s : State) : State :=
  match k with
  | .single k1 => s.loadSingle k1
  | .triple k1 k2 k3 => s.loadTriple k1 k2 k3

/-- `SETKEY` (R101): no error for any length. -/
def execSetkey (raw : Bytes) (s : State) : Host.Outcome State Fault Refusal :=
  complete s (.ok (loadKey (deriveSubKeys raw) s, []))

end Sys2Proof.Machine
end

