-- ==== Sys2Proof/Machine/Padder.lean ====
section
/-! DEFINITION. The Padder (`42_padder.md`): `pad`, `unpad`, `zext8`. -/

namespace Sys2Proof.Machine

/-- `pad(d)` (R110): `n = 8 - (len(d) mod 8)` bytes of value `n`. -/
def pad (d : Bytes) : Bytes :=
  let n := 8 - d.length % 8
  d ++ rep (BitVec.ofNat 8 n) n

/-- `zext8(d)` (R115): zero bytes on the right to a multiple of 8. -/
def zext8 (d : Bytes) : Bytes :=
  let r := d.length % 8
  if r = 0 then d else d ++ zeros (8 - r)

/-- The policy-specific test of R113 and R114 on a buffer whose last byte is `b`: does the padding stand? -/
def padAccepted (policy : PadPolicy) (d : Bytes) (b : Byte) : Bool :=
  match policy with
  | .lenient => decide (b.toNat ≤ d.length)
  | .strict =>
    decide (1 ≤ b.toNat ∧ b.toNat ≤ 8) && (d.drop (d.length - b.toNat)).all (fun x => x == b)

/-- `unpad(d)` (R112 to R114): the buffer without its last `n` bytes, `n` its last byte, or `ERR_PAD`. -/
def unpad (policy : PadPolicy) (d : Bytes) : Except CmdError Bytes :=
  match d.getLast? with
  | none => .error .pad
  | some b => if padAccepted policy d b then .ok (d.take (d.length - b.toNat)) else .error .pad

end Sys2Proof.Machine
end

