-- ==== Sys2Proof/Machine/LegacyCascade.lean ====
section
/-! DEFINITION. The LegacyCascadeEngine (`45_legacy_cascade.md`): `ENCRYPT` and `DECRYPT` when legacy-active, in the
whole-message form of R152 and R153, and the block-serial form of R154. -/

namespace Sys2Proof.Machine

/-- `StageEncrypt(i, m)` (R151): stage `i` as a CBC encryptor. -/
def stageEncrypt (P : Params) (i : Stage) (m : List Block) (s : State) : State × List Block :=
  let r := cbcEncryptLoop (P.desE (s.key i)) (s.senc i) m
  (s.setSenc i r.2, r.1)

/-- `StageDecrypt(i, m)` (R151): stage `i` as a CBC decryptor. -/
def stageDecrypt (P : Params) (i : Stage) (m : List Block) (s : State) : State × List Block :=
  let r := cbcDecryptLoop (P.desD (s.key i)) (s.sdec i) m
  (s.setSdec i r.2, r.1)

/-- `ENCRYPT`, legacy-active, on whole blocks (R152). -/
def legacyEncryptBlocks (P : Params) (m : List Block) (s : State) : State × List Block :=
  let t1 := stageEncrypt P .one m s
  let t2 := stageDecrypt P .two t1.2 t1.1
  stageEncrypt P .three t2.2 t2.1

/-- `DECRYPT`, legacy-active, on whole blocks (R153). -/
def legacyDecryptBlocks (P : Params) (m : List Block) (s : State) : State × List Block :=
  let u3 := stageDecrypt P .three m s
  let u2 := stageEncrypt P .two u3.2 u3.1
  stageDecrypt P .one u2.2 u2.1

/-- `ENCRYPT`, legacy-active (R152): zero-extended, never padded (R155). -/
def legacyEncrypt (P : Params) (data : Bytes) (s : State) : State × Bytes :=
  let r := legacyEncryptBlocks P (toBlocks (zext8 data)) s
  (r.1, ofBlocks r.2)

/-- `DECRYPT`, legacy-active (R153): zero-extended, never unpadded (R155). -/
def legacyDecrypt (P : Params) (data : Bytes) (s : State) : State × Bytes :=
  let r := legacyDecryptBlocks P (toBlocks (zext8 data)) s
  (r.1, ofBlocks r.2)

/-! ## The block-serial form (R154) -/

/-- The three running values of the block-serial form. -/
structure Running where
  x1 : Block
  x2 : Block
  x3 : Block
deriving DecidableEq, Repr

/-- The loop of `LegacyEncrypt` (R154) under the sub-keys of `s`. -/
def serialEncryptLoop (P : Params) (s : State) : Running → List Block → Running × List Block
  | x, [] => (x, [])
  | x, b :: bs =>
    let t1 := P.desE s.k1 (xorBlock b x.x1)
    let t2 := xorBlock (P.desD s.k2 t1) x.x2
    let t3 := P.desE s.k3 (xorBlock t2 x.x3)
    let r := serialEncryptLoop P s ⟨t1, t1, t3⟩ bs
    (r.1, t3 :: r.2)

/-- The loop of `LegacyDecrypt` (R154) under the sub-keys of `s`. -/
def serialDecryptLoop (P : Params) (s : State) : Running → List Block → Running × List Block
  | x, [] => (x, [])
  | x, c :: cs =>
    let u3 := xorBlock (P.desD s.k3 c) x.x3
    let u2 := P.desE s.k2 (xorBlock u3 x.x2)
    let u1 := xorBlock (P.desD s.k1 u2) x.x1
    let r := serialDecryptLoop P s ⟨u2, u2, c⟩ cs
    (r.1, u1 :: r.2)

/-- `LegacyEncrypt(m)` of R154. -/
def serialEncryptBlocks (P : Params) (m : List Block) (s : State) : State × List Block :=
  let r := serialEncryptLoop P s ⟨s.senc1, s.sdec2, s.senc3⟩ m
  ({ s with senc1 := r.1.x1, sdec2 := r.1.x2, senc3 := r.1.x3 }, r.2)

/-- `LegacyDecrypt(m)` of R154. -/
def serialDecryptBlocks (P : Params) (m : List Block) (s : State) : State × List Block :=
  let r := serialDecryptLoop P s ⟨s.sdec1, s.senc2, s.sdec3⟩ m
  ({ s with sdec1 := r.1.x1, senc2 := r.1.x2, sdec3 := r.1.x3 }, r.2)

end Sys2Proof.Machine
end

