-- ==== Sys2Proof/Machine/TripleCipher.lean ====
section
/-! DEFINITION. The TripleCipherEngine (`44_ede3_engine.md`): the block transforms, ECB and CBC, and the commands
`ENCRYPT` and `DECRYPT` with their choice of path (R130). The rules take the parameters as an argument; the commands run
them with `Config.params`. -/

namespace Sys2Proof.Machine

/-- `EncryptBlock(p)` (R131, R139). Under `KEYCLASS = NONE` no rule calls it (log 13). -/
def encryptBlock (P : Params) (s : State) (p : Block) : Block :=
  match s.keyclass with
  | .none => p
  | .single => P.desE s.k1 p
  | .triple => P.desE s.k3 (P.desD s.k2 (P.desE s.k1 p))

/-- `DecryptBlock(c)` (R132, R139). Under `KEYCLASS = NONE` no rule calls it (log 13). -/
def decryptBlock (P : Params) (s : State) (c : Block) : Block :=
  match s.keyclass with
  | .none => c
  | .single => P.desD s.k1 c
  | .triple => P.desD s.k1 (P.desE s.k2 (P.desD s.k3 c))

/-- `EcbEncrypt(m)` (R134). -/
def ecbEncrypt (P : Params) (s : State) (m : List Block) : List Block := m.map (encryptBlock P s)

/-- `EcbDecrypt(m)` (R137). -/
def ecbDecrypt (P : Params) (s : State) (m : List Block) : List Block := m.map (decryptBlock P s)

/-- The loop of `CbcEncrypt(m)` (R135): the ciphertext blocks and the final running value. -/
def cbcEncrypt (P : Params) (s : State) (m : List Block) : List Block × Block :=
  cbcEncryptLoop (encryptBlock P s) (encStart s) m

/-- `CbcDecrypt(m)` (R138): the decrypted blocks and the final running value. -/
def cbcDecrypt (P : Params) (s : State) (m : List Block) : List Block × Block :=
  cbcDecryptLoop (decryptBlock P s) (decStart s) m

/-- `if CONTEN = 1 then ENCIV <- xor` (R125). -/
def storeEnciv (s : State) (xor : Block) : State := if s.conten then s.setEnciv xor else s

/-- `if CONTEN = 1 then DECIV <- xor` (R125). -/
def storeDeciv (s : State) (xor : Block) : State := if s.conten then s.setDeciv xor else s

/-- The blocks an `ENCRYPT` runs over (R133, R152): padded if padding applies (R111), then zero-extended (R115). -/
def encryptInput (s : State) (data : Bytes) : List Block :=
  toBlocks (zext8 (if paddingApplies s then pad data else data))

/-- The blocks a `DECRYPT` runs over (R136, R153): the payload zero-extended. -/
def decryptInput (data : Bytes) : List Block := toBlocks (zext8 data)

/-- The decrypted buffer and the registers of a `DECRYPT` outside the cascade, before `unpad` (R136). -/
def decryptBuffer (P : Params) (data : Bytes) (s : State) : State × Bytes :=
  if s.mode = .ecb then (s, ofBlocks (ecbDecrypt P s (decryptInput data)))
  else
    let r := cbcDecrypt P s (decryptInput data)
    (storeDeciv s r.2, ofBlocks r.1)

/-- The rule of `ENCRYPT` (R133). -/
def encryptBody (P : Params) (data : Bytes) (s : State) : Result :=
  if s.keyclass = .none then .error .nokey
  else if legacyActive s then .ok (legacyEncrypt P data s)
  else if s.mode = .ecb then .ok (s, ofBlocks (ecbEncrypt P s (encryptInput s data)))
  else
    let r := cbcEncrypt P s (encryptInput s data)
    .ok (storeEnciv s r.2, ofBlocks r.1)

/-- The rule of `DECRYPT` (R136): `DECIV` is written only where `unpad` has not raised `ERR_PAD`. -/
def decryptBody (P : Params) (data : Bytes) (s : State) : Result :=
  if s.keyclass = .none then .error .nokey
  else if legacyActive s then .ok (legacyDecrypt P data s)
  else
    let r := decryptBuffer P data s
    if s.paden then
      match unpad P.padPolicy r.2 with
      | .ok out => .ok (r.1, out)
      | .error e => .error e
    else .ok r

/-- `ENCRYPT` (R133) on the machine's primitive. -/
def execEncrypt (data : Bytes) (s : State) : Host.Outcome State Fault Refusal :=
  complete s (encryptBody Config.params data s)

/-- `DECRYPT` (R136) on the machine's primitive. -/
def execDecrypt (data : Bytes) (s : State) : Host.Outcome State Fault Refusal :=
  complete s (decryptBody Config.params data s)

end Sys2Proof.Machine
end

