-- ==== Sys2Proof/Machine/Dispatch.lean ====
section
/-! DEFINITION. One arm per command of the opcode map (`30_encoding.md` R74). -/

namespace Sys2Proof.Machine

def exec (i : Instr) (s : State) : Host.Outcome State Fault Refusal :=
  match i with
  | .config arg => Sys2Proof.Machine.execConfig arg s
  | .setkey raw => Sys2Proof.Machine.execSetkey raw s
  | .setiv iv => Sys2Proof.Machine.execSetiv iv s
  | .enpad => Sys2Proof.Machine.execEnpad s
  | .dispad => Sys2Proof.Machine.execDispad s
  | .encont => Sys2Proof.Machine.execEncont s
  | .discont => Sys2Proof.Machine.execDiscont s
  | .encrypt data => Sys2Proof.Machine.execEncrypt data s
  | .decrypt data => Sys2Proof.Machine.execDecrypt data s
  | .bkhint hint => Sys2Proof.Machine.execBkhint hint s

end Sys2Proof.Machine
end

