-- ==== Sys2Proof/Machine/Port.lean ====
section
/-! DEFINITION. The command port (`30_encoding.md` R70, R71): what the engine does with a command, legal or not, with
`RESET`, and when nothing is presented. -/

namespace Sys2Proof.Machine

/-- One transaction (R70, R81): decode, then execute, or end with `ERR_ILLEGAL` before anything else is looked at
(R77, R162, R167). -/
def runCommand (c : Command) (s : State) : Host.Outcome State Fault Refusal :=
  match decode c with
  | .ok i => exec i s
  | .error _ => complete s (.error .illegal)

/-- What one event of the host does to the engine: a transaction, or the reset event, which abandons a command in
progress without a response (R180, log 8). -/
def runEvent (e : HostEvent) (s : State) : Host.Outcome State Fault Refusal :=
  match e with
  | .command c => runCommand c s
  | .reset _ => .next s.resetEvent

/-- With nothing presented the engine is idle and keeps all its state (R172, R180, log 2). -/
def idle (s : State) : Host.Outcome State Fault Refusal := .next s

/-- The engine takes the host's next event (R59). -/
def serve (s : State) : Host.Outcome State Fault Refusal :=
  match s.pending with
  | [] => idle s
  | e :: es => runEvent e (s.setPending es)

end Sys2Proof.Machine
end

