-- ==== Sys2Proof/Machine/Step.lean ====
section
/-! DEFINITION. One step of the machine: one event of the host (`20_memory.md` R57, R59, `30_encoding.md` R70). -/

namespace Sys2Proof.Machine

/-- One step. The engine fetches no instructions (R22): it executes the command the host presents. -/
def step (s : State) : Host.Outcome State Fault Refusal := serve s

/-- The host presents the command of a table word next (log 10). -/
def State.withFetchWord (s : State) (nbits w : Nat) : State := s.present (tableCommand nbits w)

end Sys2Proof.Machine
end

