-- ==== Sys2Proof/Machine/Assembly.lean ====
section
/-! DEFINITION. The assembler's view of the commands (`30_encoding.md` R82, R83): the words of a command's line, and the two
pseudo-commands with their expansions. Notation only: no text crosses the interface (R70). -/

namespace Sys2Proof.Machine

/-- A hexadecimal digit, upper case (R82). -/
def hexDigit (n : Nat) : Char :=
  if n < 10 then Char.ofNat (48 + n) else Char.ofNat (55 + n)

/-- The two hexadecimal digits of a byte, the most significant first (R11, R82). -/
def byteDigits (b : Byte) : List Char := [hexDigit (b.toNat / 16), hexDigit (b.toNat % 16)]

/-- A byte of a payload in a command line (R82). -/
def byteText (b : Byte) : String := String.ofList (byteDigits b)

/-- The mode of a `CONFIG` line: a name for the three assigned codes, else the number (R75, R82). -/
def modeText (arg : Byte) : String :=
  if arg = 0x01 then "ECB" else if arg = 0x02 then "CBC" else if arg = 0x03 then "LEGACY"
  else String.ofList ('0' :: 'x' :: byteDigits arg)

/-- A payload in a command line; `<>` for an empty one (R82). -/
def payloadText (d : Bytes) : List String := if d = [] then ["<>"] else d.map byteText

/-- The words of the line of a command (R82). -/
def instrText (i : Instr) : List String :=
  i.mnemonic ::
    match i with
    | .config arg => [modeText arg]
    | .setkey raw => payloadText raw
    | .setiv iv => payloadText iv
    | .enpad => []
    | .dispad => []
    | .encont => []
    | .discont => []
    | .encrypt data => payloadText data
    | .decrypt data => payloadText data
    | .bkhint hint => payloadText hint

/-- The pseudo-commands (R83). -/
inductive PseudoCommand where
  | init (mode : Byte) (key iv : Bytes)
  | rewind
deriving DecidableEq, Repr

/-- The commands a pseudo-command stands for (R83). -/
def expandPseudo (p : PseudoCommand) : List Instr :=
  match p with
  | .init mode key iv => [.config mode, .setkey key, .setiv iv]
  | .rewind => [.discont, .encont]

end Sys2Proof.Machine
end

