-- ==== Sys2Proof/Machine/PrimPort.lean ====
section
/-! DEFINITION. The calls a data command makes on the port `PRIM` (`30_encoding.md` R71, `20_memory.md` R65): which
direction under which sub-key for one block, and how many for a command. A work count (R195), no state. -/

namespace Sys2Proof.Machine

/-- The direction bit of a primitive call (R71). -/
inductive PrimDir where
  | enc
  | dec
deriving DecidableEq, Repr

/-- One call of the primitive: its direction, and the sub-key it passes (R71). -/
structure PrimCall where
  dir : PrimDir
  key : Stage
deriving DecidableEq, Repr

/-- The calls `EncryptBlock` makes for one block, in order (R131, R139). -/
def encryptCalls : KeyClass → List PrimCall
  | .none => []
  | .single => [⟨.enc, .one⟩]
  | .triple => [⟨.enc, .one⟩, ⟨.dec, .two⟩, ⟨.enc, .three⟩]

/-- The calls `DecryptBlock` makes for one block, in order (R132, R139). -/
def decryptCalls : KeyClass → List PrimCall
  | .none => []
  | .single => [⟨.dec, .one⟩]
  | .triple => [⟨.dec, .three⟩, ⟨.enc, .two⟩, ⟨.dec, .one⟩]

/-- One primitive call under the sub-keys of `s`. -/
def runCall (P : Params) (s : State) (b : Block) (c : PrimCall) : Block :=
  match c.dir with
  | .enc => P.desE (s.key c.key) b
  | .dec => P.desD (s.key c.key) b

/-- A list of primitive calls, each on the result of the one before. -/
def runCalls (P : Params) (s : State) (cs : List PrimCall) (b : Block) : Block :=
  cs.foldl (runCall P s) b

/-- How many primitive calls a command makes (R65): `n` or `3n` for a data command on `n` blocks, whichever way the
cascade or the block transform arranges them; none for a command that consults no key. -/
def primCalls (i : Instr) (s : State) : Nat :=
  match i with
  | .config _ => 0
  | .setkey _ => 0
  | .setiv _ => 0
  | .enpad => 0
  | .dispad => 0
  | .encont => 0
  | .discont => 0
  | .encrypt data => (encryptInput s data).length * (encryptCalls s.keyclass).length
  | .decrypt data => (decryptInput data).length * (decryptCalls s.keyclass).length
  | .bkhint _ => 0

end Sys2Proof.Machine
end

