-- ==== Sys2Proof/Safety.lean ====
section
/-! DEFINITION. The terms claims use: the invariants the spec names (`10_state.md` R39, `43_chainstate.md` R124,
`45_legacy_cascade.md` R158), the part of the state that is registers, the part of it that a rule can read, and a sequence of
commands with the responses the host gets. A run is safe when every invariant holds and every command is answered. -/

namespace Sys2Proof.Machine

/-! ## Invariants -/

/-- R124, R39 (b): whenever `CONTEN = 0`, `ENCIV = DECIV = BASEIV`. -/
def ChainInv (s : State) : Prop := s.conten = false → s.enciv = s.baseiv ∧ s.deciv = s.baseiv

/-- R158: `SENC[1] = SDEC[2]` and `SENC[2] = SDEC[1]`. -/
def StagePairInv (s : State) : Prop := s.senc1 = s.sdec2 ∧ s.senc2 = s.sdec1

/-- All six stage registers are `zeros(8)`. -/
def StagesZero (s : State) : Prop :=
  s.senc1 = Block.zeros ∧ s.senc2 = Block.zeros ∧ s.senc3 = Block.zeros ∧
  s.sdec1 = Block.zeros ∧ s.sdec2 = Block.zeros ∧ s.sdec3 = Block.zeros

/-- What R39 (d) and R33 give for one state: the stage registers are `zeros(8)` in every mode but `LEGACY`, and while no
key has been loaded since the last reset or `CONFIG`. -/
def StageZeroInv (s : State) : Prop := s.mode ≠ .legacy ∨ s.keyclass = .none → StagesZero s

/-! ## Parts of the state -/

/-- The registers of R21 alone: `cmdidx` and the host interface blanked. Two states have the same registers when this is
the same. -/
def registers (s : State) : State := { s with cmdidx := 0, pending := [], response := none }

/-- The registers with the content of every sub-key that no rule reads blanked (R23): all three under `NONE`, `K[2]` and
`K[3]` under `SINGLE`. -/
def readableRegisters (s : State) : State :=
  match s.keyclass with
  | .none => { registers s with k1 := Block.zeros, k2 := Block.zeros, k3 := Block.zeros }
  | .single => { registers s with k2 := Block.zeros, k3 := Block.zeros }
  | .triple => registers s

/-- The sub-keys and what selects among them are the same in two states. -/
def SameKey (s t : State) : Prop := s.keyclass = t.keyclass ∧ s.k1 = t.k1 ∧ s.k2 = t.k2 ∧ s.k3 = t.k3

/-- Which part of the configuration a control command of R94 sets: the key, the IV, the padding flag, the continuous
flag; no group for the other commands. -/
def controlGroup (i : Instr) : Option Nat :=
  match i with
  | .config _ => none
  | .setkey _ => some 0
  | .setiv _ => some 1
  | .enpad => some 2
  | .dispad => some 2
  | .encont => some 3
  | .discont => some 3
  | .encrypt _ => none
  | .decrypt _ => none
  | .bkhint _ => none

/-! ## Sequences of commands -/

/-- A sequence of commands, one after the other (R59): the state it leaves and the responses the host gets, in order. -/
def session : List Instr → State → Option (State × List Response)
  | [], s => some (s, [])
  | i :: is, s =>
    match exec i s with
    | .next t =>
      match t.response, session is t with
      | some r, some (u, rs) => some (u, r :: rs)
      | some _, none => none
      | none, _ => none
    | .fault _ => none
    | .refused _ => none

/-- The output payloads of a sequence of responses, concatenated. -/
def outputs : List Response → Bytes
  | [] => []
  | r :: rs => r.out ++ outputs rs

/-- Every response has status `OK`. -/
def AllOk (rs : List Response) : Prop := ∀ r ∈ rs, r.status = statusOk

end Sys2Proof.Machine
end

