-- ==== Sys2Proof/Certificates/Slice0/Obligations.lean ====
section
/-! DEFINITION. The statements for the provers, from the numbered rules of spec/. A data command is stated over the machine's
own parameters, `Config.params`: of the primitive nothing is known but R10, of the pad policy nothing at all. In every statement `pending` and `response`
are the model's own fields for the two ends of the host interface, not registers of the spec (logs 1, 14). -/

open Sys2Proof Sys2Proof.Machine

/-! ## Commands and their words -/

/-- R72, R74, R76, R81: decoding an encoded command gives it back, with every operand. -/
def Obligations.DecodeEncodeRoundTrip : Prop :=
  ∀ i : Instr, i.wellFormed = true → decode (encode i) = .ok i

/-- R72, R74, R77: each legal command has one encoding, so encoding what was decoded gives the command presented. -/
def Obligations.EncodeDecodeRoundTrip : Prop :=
  ∀ (c : Command) (i : Instr), decode c = .ok i → encode i = c

/-- R72 to R77: words written out from the opcode map, one or more for every row, and some illegal ones. -/
def Obligations.WorkedWordsDecode : Prop :=
  decode ⟨0x00000101, []⟩ = .ok (.config 0x01) ∧
  decode ⟨0x0000FF01, []⟩ = .ok (.config 0xFF) ∧
  decode ⟨0x00000002, [0x01, 0x02]⟩ = .ok (.setkey [0x01, 0x02]) ∧
  decode ⟨0x00000003, [0xA0]⟩ = .ok (.setiv [0xA0]) ∧
  decode ⟨0x00000004, []⟩ = .ok .enpad ∧
  decode ⟨0x00000005, []⟩ = .ok .dispad ∧
  decode ⟨0x00000006, []⟩ = .ok .encont ∧
  decode ⟨0x00000007, []⟩ = .ok .discont ∧
  decode ⟨0x00000008, [0x11]⟩ = .ok (.encrypt [0x11]) ∧
  decode ⟨0x00000009, [0x22]⟩ = .ok (.decrypt [0x22]) ∧
  decode ⟨0x0000000A, [0x78]⟩ = .ok (.bkhint [0x78]) ∧
  decode ⟨0x00000000, []⟩ = .error .unassignedOpcode ∧
  decode ⟨0x00010008, []⟩ = .error .reservedBits ∧
  decode ⟨0x00000104, []⟩ = .error .strayArgument ∧
  decode ⟨0x00000201, [0x00]⟩ = .error .strayPayload

/-- R73, R74, R81: a command is decoded to the instruction of the row of the opcode map its word selects and its payload
fits, and a command with such a row is decoded; the payload is the operand whole (R76). -/
def Obligations.DecodingFollowsOpcodeMap : Prop :=
  (∀ (c : Command) (i : Instr), decode c = .ok i →
    ∃ r ∈ opcodeMap, r.selects c.cmdw = true ∧ r.allows c.payload = true ∧ r.mnemonic = i.mnemonic ∧
      i.payload = c.payload) ∧
  (∀ (c : Command), ∀ r ∈ opcodeMap, r.selects c.cmdw = true → r.allows c.payload = true →
    ∃ i, decode c = .ok i ∧ i.mnemonic = r.mnemonic)

/-- R77: the four tests in their order, on the fields `RSV = w / 65536`, `ARG = w / 256 mod 256`, `OPC = w mod 256`; a command
that passes all is legal, and one that fails any ends with `ERR_ILLEGAL`, an empty `OUT` and no change of a register. -/
def Obligations.IllegalCommandTests : Prop :=
  ∀ (w : CmdWord) (p : Bytes),
    let rsv := w.toNat / 65536
    let arg := w.toNat / 256 % 256
    let opc := w.toNat % 256
    (rsv ≠ 0 → decode ⟨w, p⟩ = .error .reservedBits) ∧
    (rsv = 0 → (opc = 0 ∨ 11 ≤ opc) → decode ⟨w, p⟩ = .error .unassignedOpcode) ∧
    (rsv = 0 → 1 ≤ opc → opc ≤ 10 → opc ≠ 1 → arg ≠ 0 → decode ⟨w, p⟩ = .error .strayArgument) ∧
    (rsv = 0 → (opc = 1 ∨ arg = 0) → opc ∈ [1, 4, 5, 6, 7] → p ≠ [] → decode ⟨w, p⟩ = .error .strayPayload) ∧
    (rsv = 0 → 1 ≤ opc → opc ≤ 10 → (opc = 1 ∨ arg = 0) → (opc ∈ [1, 4, 5, 6, 7] → p = []) →
      ∃ i, decode ⟨w, p⟩ = .ok i) ∧
    (∀ e, decode ⟨w, p⟩ = .error e → ∀ s : State,
      runCommand ⟨w, p⟩ s = .next { s with cmdidx := s.cmdidx + 1, response := some ⟨0x01, []⟩ })

/-! ## The host interface -/

/-- R59, R70, R81: when the host's next event is a command that decodes to a well-formed instruction, the step is that
instruction's meaning on the state with the event taken. The rest is the model's and no rule of the spec: that the host's events
are a list in the state (DESIGN CHOICE, log 1); that `decodeTableWord` and `withFetchWord` give a table word an empty payload and
put it in front of the host's events, so that the very next step runs it (DESIGN CHOICE, log 10); and that with nothing presented
there is a step, which keeps all the state R172 says the idle engine keeps (DEDUCED, log 2). -/
def Obligations.StepRunsDecodedCommand : Prop :=
  (∀ (s : State) (c : Command) (es : List HostEvent) (i : Instr),
    s.pending = .command c :: es → decode c = .ok i → i.wellFormed = true →
      step s = exec i { s with pending := es }) ∧
  (∀ (s : State) (nbits w : Nat) (i : Instr), decodeTableWord nbits w = some i →
    step (s.withFetchWord nbits w) = exec i s) ∧
  (∀ s : State, s.pending = [] → step s = .next s)

/-- R162, R166, R167: an illegal command presented by the host is answered `ERR_ILLEGAL`, whatever the state. -/
def Obligations.IllegalCommandStep : Prop :=
  ∀ (s : State) (c : Command) (es : List HostEvent) (e : Illegal),
    s.pending = .command c :: es → decode c = .error e →
      step s = .next { s with pending := es, cmdidx := s.cmdidx + 1, response := some ⟨0x01, []⟩ }

/-- R180: asserting `RESET`, with or without a command in progress, gives the reset state and no response, and the engine then
waits for the next command. That the host's later events stay is the model's (DESIGN CHOICE, log 8), and so is that waiting is a
step (DEDUCED, log 2). -/
def Obligations.ResetEventRestores : Prop :=
  ∀ (s : State) (a : Option Command) (es : List HostEvent), s.pending = .reset a :: es →
    ∃ t, step s = .next t ∧ t.mode = .cbc ∧ t.paden = true ∧ t.conten = false ∧ t.keyclass = .none ∧
      t.baseiv = Block.zeros ∧ t.enciv = Block.zeros ∧ t.deciv = Block.zeros ∧ StagesZero t ∧ t.cmdidx = 0 ∧
      t.response = none ∧ t.pending = es ∧ (es = [] → step t = .next t)

/-- R38: the values the spec states for reset. -/
def Obligations.ResetValues : Prop :=
  State.reset.mode = .cbc ∧ State.reset.paden = true ∧ State.reset.conten = false ∧ State.reset.keyclass = .none ∧
  State.reset.baseiv = ⟨0, 0, 0, 0, 0, 0, 0, 0⟩ ∧ State.reset.enciv = ⟨0, 0, 0, 0, 0, 0, 0, 0⟩ ∧
  State.reset.deciv = ⟨0, 0, 0, 0, 0, 0, 0, 0⟩ ∧ StagesZero State.reset ∧ State.reset.cmdidx = 0

/-! ## The control commands -/

/-- R90, R75: `CONFIG` selects the mode, with every other code than 1 and 3 read as CBC, and brings everything the spec gives
a construction value to that value; `OK` for every argument. That `cmdidx` goes on counting, as R22 and R182 say, against the 0
in R38's table, is the model's reading (DEDUCED, log 9). -/
def Obligations.ConfigConstructs : Prop :=
  ∀ (arg : Byte) (s : State), ∃ t, exec (.config arg) s = .next t ∧
    t.mode = (if arg = 0x01 then .ecb else if arg = 0x03 then .legacy else .cbc) ∧
    t.paden = true ∧ t.conten = false ∧ t.keyclass = .none ∧
    t.baseiv = Block.zeros ∧ t.enciv = Block.zeros ∧ t.deciv = Block.zeros ∧ StagesZero t ∧
    t.cmdidx = s.cmdidx + 1 ∧ t.pending = s.pending ∧ t.response = some ⟨0x00, []⟩

/-- R91: `ENPAD` writes `PADEN` and nothing else, status `OK`. -/
def Obligations.EnpadSetsPaden : Prop :=
  ∀ s : State, exec .enpad s =
    .next { s with paden := true, cmdidx := s.cmdidx + 1, response := some ⟨0x00, []⟩ }

/-- R92: `DISPAD` writes `PADEN` and nothing else, status `OK`. -/
def Obligations.DispadClearsPaden : Prop :=
  ∀ s : State, exec .dispad s =
    .next { s with paden := false, cmdidx := s.cmdidx + 1, response := some ⟨0x00, []⟩ }

/-- R79, R95: the word `0x0000000A` with any payload is `BKHINT`, which does nothing, status `OK`. -/
def Obligations.BkhintIsNoOp : Prop :=
  ∀ (hint : Bytes) (s : State), decode ⟨0x0000000A, hint⟩ = .ok (.bkhint hint) ∧
    exec (.bkhint hint) s = .next { s with cmdidx := s.cmdidx + 1, response := some ⟨0x00, []⟩ }

/-- R122: `ENCONT` writes `CONTEN` and nothing else, status `OK`. -/
def Obligations.EncontSetsConten : Prop :=
  ∀ s : State, exec .encont s =
    .next { s with conten := true, cmdidx := s.cmdidx + 1, response := some ⟨0x00, []⟩ }

/-- R123: `DISCONT` clears `CONTEN` and rewinds both slots, nothing else, status `OK`. -/
def Obligations.DiscontRewinds : Prop :=
  ∀ s : State, exec .discont s =
    .next { s with conten := false, enciv := s.baseiv, deciv := s.baseiv, cmdidx := s.cmdidx + 1,
                   response := some ⟨0x00, []⟩ }

/-- R121, R164: `SETIV` with exactly 8 bytes loads them into `BASEIV`, `ENCIV` and `DECIV`, whatever `CONTEN` is, and nothing
else; with any other length it answers `ERR_IVLEN` and writes nothing. -/
def Obligations.SetivLoadsOrRejects : Prop :=
  ∀ (iv : Bytes) (s : State),
    (iv.length = 8 → ∃ v, blockBytes v = iv ∧ exec (.setiv iv) s =
      .next { s with baseiv := v, enciv := v, deciv := v, cmdidx := s.cmdidx + 1, response := some ⟨0x00, []⟩ }) ∧
    (iv.length ≠ 8 → exec (.setiv iv) s =
      .next { s with cmdidx := s.cmdidx + 1, response := some ⟨0x03, []⟩ })

/-- R94: after any state, two control commands that set different parts of the configuration may be issued in either order;
the registers they leave are the same. -/
def Obligations.ControlOrderIrrelevant : Prop :=
  ∀ (i j : Instr) (m n : Nat) (s : State), controlGroup i = some m → controlGroup j = some n → m ≠ n →
    ∃ t u t' u', exec i s = .next t ∧ exec j t = .next u ∧ exec j s = .next t' ∧ exec i t' = .next u' ∧
      registers u = registers u'

/-! ## The KeyScheduler -/

/-- R100, R101, R102: the table of R100 by the length of the raw key, status `OK` for every length, no register written but
`KEYCLASS`, `K[1]` and, with a long key, `K[2]` and `K[3]`. That `K[2]` and `K[3]`, which a short key makes unread, still hold what
they held is the model's choice (DESIGN CHOICE, log 4): R23 leaves their content unspecified. -/
def Obligations.SetkeyByLength : Prop :=
  ∀ (raw : Bytes) (s : State), ∃ kc a b c, exec (.setkey raw) s =
      .next { s with keyclass := kc, k1 := a, k2 := b, k3 := c, cmdidx := s.cmdidx + 1, response := some ⟨0x00, []⟩ } ∧
    (raw.length ≤ 8 → kc = .single ∧ blockBytes a = raw ++ List.replicate (8 - raw.length) 0 ∧ b = s.k2 ∧ c = s.k3) ∧
    (9 ≤ raw.length → kc = .triple ∧ blockBytes a = raw.take 8) ∧
    (9 ≤ raw.length → raw.length ≤ 16 →
      blockBytes b = raw.drop 8 ++ List.replicate (16 - raw.length) 0 ∧ c = a) ∧
    (17 ≤ raw.length → blockBytes b = (raw.drop 8).take 8) ∧
    (17 ≤ raw.length → raw.length ≤ 24 → blockBytes c = raw.drop 16 ++ List.replicate (24 - raw.length) 0) ∧
    (24 < raw.length → blockBytes c = (raw.drop 16).take 8)

/-- R101: bytes beyond the 24th are ignored, so raw keys that agree in their first 24 bytes are the same key. -/
def Obligations.SetkeyIgnoresBytesPast24 : Prop :=
  ∀ (raw raw' : Bytes) (s : State), raw.take 24 = raw'.take 24 → exec (.setkey raw) s = exec (.setkey raw') s

/-- R103: a second `SETKEY` with the same payload leaves the same registers as one, and deriving again from the three sub-keys
of a long key returns the same three. -/
def Obligations.SetkeyIdempotent : Prop :=
  (∀ (raw : Bytes) (s : State), ∃ t u, exec (.setkey raw) s = .next t ∧ exec (.setkey raw) t = .next u ∧
    registers u = registers t) ∧
  (∀ (raw : Bytes) (a b c : Block), deriveSubKeys raw = .triple a b c →
    deriveSubKeys (blockBytes a ++ blockBytes b ++ blockBytes c) = .triple a b c)

/-- R145, R131, R10: a 16-byte key is two-key triple DES; with all sub-keys equal the block transform is single DES, and outside
LEGACY the engine answers as it does with the 8-byte key. -/
def Obligations.KeyForms : Prop :=
  ∀ (a b : Block) (s : State),
    (∃ t, exec (.setkey (blockBytes a ++ blockBytes b)) s = .next t ∧
      ∀ p, encryptBlock Config.params t p =
        Config.params.desE a (Config.params.desD b (Config.params.desE a p))) ∧
    (∃ t u v, exec (.setkey (blockBytes a ++ blockBytes a)) s = .next t ∧
      exec (.setkey (blockBytes a ++ blockBytes a ++ blockBytes a)) s = .next u ∧
      exec (.setkey (blockBytes a)) s = .next v ∧
      (∀ p, encryptBlock Config.params t p = Config.params.desE a p ∧
        encryptBlock Config.params u p = Config.params.desE a p ∧ encryptBlock Config.params v p = Config.params.desE a p) ∧
      (s.mode ≠ .legacy → ∀ d, ∃ t' u' v', exec (.encrypt d) t = .next t' ∧ exec (.encrypt d) u = .next u' ∧
        exec (.encrypt d) v = .next v' ∧ t'.response = v'.response ∧ u'.response = v'.response))

/-! ## The Padder -/

/-- R110: `pad` appends `n = 8 - (len(d) mod 8)` bytes, 1 to 8, each of value `n`. -/
def Obligations.PadAppends : Prop :=
  ∀ d : Bytes, ∃ (n : Nat) (tail : Bytes), n = 8 - d.length % 8 ∧ 1 ≤ n ∧ n ≤ 8 ∧ pad d = d ++ tail ∧ tail.length = n ∧
    (∀ x ∈ tail, x.toNat = n) ∧ (pad d).length = (d.length / 8 + 1) * 8

/-- R115: `zext8` appends fewer than 8 zero bytes, reaches a multiple of 8, and changes nothing on a multiple of 8, so nothing
after `pad`. -/
def Obligations.ZeroExtension : Prop :=
  ∀ d : Bytes, (∃ k, k < 8 ∧ zext8 d = d ++ List.replicate k 0 ∧ (d.length + k) % 8 = 0) ∧
    (zext8 d = d ↔ d.length % 8 = 0) ∧ zext8 (pad d) = pad d

/-- R112, R113, R114, R165: the table of R165, by the last byte of the decrypted buffer, for both policies. -/
def Obligations.UnpadTable : Prop :=
  (∀ policy, unpad policy [] = .error .pad) ∧
  (∀ (d : Bytes) (b : Byte), (d.length + 1) % 8 = 0 →
    let buf := d ++ [b]
    let n := b.toNat
    let stripped : Except CmdError Bytes := .ok (buf.take (buf.length - n))
    (n = 0 → unpad .lenient buf = .ok buf ∧ unpad .strict buf = .error .pad) ∧
    (1 ≤ n → n ≤ 8 → (∀ j, j < n → buf[buf.length - 1 - j]? = some b) →
      unpad .lenient buf = stripped ∧ unpad .strict buf = stripped) ∧
    (1 ≤ n → n ≤ 8 → (∃ j, j < n ∧ buf[buf.length - 1 - j]? ≠ some b) →
      unpad .lenient buf = stripped ∧ unpad .strict buf = .error .pad) ∧
    (9 ≤ n → n ≤ buf.length → unpad .lenient buf = stripped ∧ unpad .strict buf = .error .pad) ∧
    (buf.length < n → unpad .lenient buf = .error .pad ∧ unpad .strict buf = .error .pad))

/-- R114: under both policies `unpad` undoes `pad`, and under `STRICT` it succeeds on a buffer of whole blocks exactly when the
buffer is a padded sequence. -/
def Obligations.UnpadInvertsPad : Prop :=
  (∀ (policy : PadPolicy) (x : Bytes), unpad policy (pad x) = .ok x) ∧
  (∀ d x : Bytes, d.length % 8 = 0 → (unpad .strict d = .ok x ↔ d = pad x))

/-! ## ECB and CBC -/

/-- R131, R132, R139: the block transforms under a long and under a short key, and R10 (b), (c) carried to them. The two inverse
clauses also cover `KEYCLASS = NONE`, where no rule uses the transforms and they are the model's own, the identity
(DESIGN CHOICE, log 13). -/
def Obligations.BlockTransforms : Prop :=
  ∀ (s : State) (b : Block),
    (s.keyclass = .triple → encryptBlock Config.params s b =
        Config.params.desE s.k3 (Config.params.desD s.k2 (Config.params.desE s.k1 b)) ∧
      decryptBlock Config.params s b =
        Config.params.desD s.k1 (Config.params.desE s.k2 (Config.params.desD s.k3 b))) ∧
    (s.keyclass = .single → encryptBlock Config.params s b = Config.params.desE s.k1 b ∧
      decryptBlock Config.params s b = Config.params.desD s.k1 b) ∧
    decryptBlock Config.params s (encryptBlock Config.params s b) = b ∧
    encryptBlock Config.params s (decryptBlock Config.params s b) = b

/-- R163, R166: without a key `ENCRYPT` and `DECRYPT` answer `ERR_NOKEY`, whatever the payload. -/
def Obligations.DataCommandsNeedKey : Prop :=
  ∀ (d : Bytes) (s : State), s.keyclass = .none →
    exec (.encrypt d) s = .next { s with cmdidx := s.cmdidx + 1, response := some ⟨0x02, []⟩ } ∧
    exec (.decrypt d) s = .next { s with cmdidx := s.cmdidx + 1, response := some ⟨0x02, []⟩ }

/-- R133, R134: `ENCRYPT` in ECB, with any key: block `i` of the output is `EncryptBlock` of block `i` of the padded and
zero-extended input, and no register changes. -/
def Obligations.EncryptEcbBlocks : Prop :=
  ∀ (d : Bytes) (s : State), s.keyclass ≠ .none → s.mode = .ecb →
    let m := zext8 (if s.paden then pad d else d)
    ∃ out : Bytes, out.length = m.length ∧
      (∀ i : Nat, (toBlocks out)[i]? = ((toBlocks m)[i]?).map (encryptBlock Config.params s)) ∧
      exec (.encrypt d) s = .next { s with cmdidx := s.cmdidx + 1, response := some ⟨0x00, out⟩ }

/-- R133, R135, R120, R125, R139: `ENCRYPT` in CBC: `C_i = EncryptBlock(P_i ^ C_{i-1})`, with the start value before the first
block; `ENCIV` takes the last value of the chain when `CONTEN = 1`, and no other register changes. -/
def Obligations.EncryptCbcChain : Prop :=
  ∀ (d : Bytes) (s : State), s.keyclass ≠ .none → cbcMode s = true →
    let m := zext8 (if s.paden then pad d else d)
    let start := if s.conten then s.enciv else s.baseiv
    ∃ (out : Bytes) (last : Block), out.length = m.length ∧
      (∀ (i : Nat) (p x : Block), (toBlocks m)[i]? = some p → (start :: toBlocks out)[i]? = some x →
        (toBlocks out)[i]? = some (encryptBlock Config.params s (xorBlock p x))) ∧
      (start :: toBlocks out).getLast? = some last ∧
      exec (.encrypt d) s = .next { s with enciv := if s.conten then last else s.enciv, cmdidx := s.cmdidx + 1,
                                           response := some ⟨0x00, out⟩ }

/-- R136, R137, R166: `DECRYPT` in ECB: block `i` of the buffer is `DecryptBlock` of block `i` of the zero-extended input; the
output is the buffer, or with `PADEN = 1` what `unpad` leaves of it or `ERR_PAD`; no register changes. -/
def Obligations.DecryptEcbBlocks : Prop :=
  ∀ (c : Bytes) (s : State), s.keyclass ≠ .none → s.mode = .ecb →
    ∃ buf : Bytes, buf.length = (zext8 c).length ∧
      (∀ i : Nat, (toBlocks buf)[i]? = ((toBlocks (zext8 c))[i]?).map (decryptBlock Config.params s)) ∧
      (s.paden = false →
        exec (.decrypt c) s = .next { s with cmdidx := s.cmdidx + 1, response := some ⟨0x00, buf⟩ }) ∧
      (∀ out, s.paden = true → unpad Config.padPolicy buf = .ok out →
        exec (.decrypt c) s = .next { s with cmdidx := s.cmdidx + 1, response := some ⟨0x00, out⟩ }) ∧
      (∀ e, s.paden = true → unpad Config.padPolicy buf = .error e →
        exec (.decrypt c) s = .next { s with cmdidx := s.cmdidx + 1, response := some ⟨0x04, []⟩ })

/-- R136, R138, R120, R125, R139, R166: `DECRYPT` in CBC: `P_i = DecryptBlock(C_i) ^ C_{i-1}`, with the start value before the
first block; with status `OK` and `CONTEN = 1` `DECIV` takes the last ciphertext block; on `ERR_PAD` nothing is written. -/
def Obligations.DecryptCbcChain : Prop :=
  ∀ (c : Bytes) (s : State), s.keyclass ≠ .none → cbcMode s = true →
    let start := if s.conten then s.deciv else s.baseiv
    ∃ (buf : Bytes) (last : Block), buf.length = (zext8 c).length ∧
      (∀ (i : Nat) (p x : Block), (toBlocks (zext8 c))[i]? = some p → (start :: toBlocks (zext8 c))[i]? = some x →
        (toBlocks buf)[i]? = some (xorBlock (decryptBlock Config.params s p) x)) ∧
      (start :: toBlocks (zext8 c)).getLast? = some last ∧
      (s.paden = false → exec (.decrypt c) s =
        .next { s with deciv := if s.conten then last else s.deciv, cmdidx := s.cmdidx + 1,
                       response := some ⟨0x00, buf⟩ }) ∧
      (∀ out, s.paden = true → unpad Config.padPolicy buf = .ok out → exec (.decrypt c) s =
        .next { s with deciv := if s.conten then last else s.deciv, cmdidx := s.cmdidx + 1,
                       response := some ⟨0x00, out⟩ }) ∧
      (∀ e, s.paden = true → unpad Config.padPolicy buf = .error e → exec (.decrypt c) s =
        .next { s with cmdidx := s.cmdidx + 1, response := some ⟨0x04, []⟩ })

/-- R142: in ECB equal plaintext blocks of one message give equal ciphertext blocks; in CBC a first difference in plaintext
block `i` leaves the ciphertext blocks before `i` as they were and changes block `i`. -/
def Obligations.EcbIndependenceCbcPropagation : Prop :=
  (∀ (d : Bytes) (s : State), s.keyclass ≠ .none → s.mode = .ecb →
    let m := toBlocks (zext8 (if s.paden then pad d else d))
    ∃ (t : State) (out : Bytes), exec (.encrypt d) s = .next t ∧ t.response = some ⟨0x00, out⟩ ∧
      ∀ i j : Nat, m[i]? = m[j]? → (toBlocks out)[i]? = (toBlocks out)[j]?) ∧
  (∀ (d d' : Bytes) (s : State) (i : Nat) (p p' : Block), s.keyclass ≠ .none → cbcMode s = true →
    let m := toBlocks (zext8 (if s.paden then pad d else d))
    let m' := toBlocks (zext8 (if s.paden then pad d' else d'))
    (∀ j, j < i → m[j]? = m'[j]?) → m[i]? = some p → m'[i]? = some p' → p ≠ p' →
    ∃ (t t' : State) (out out' : Bytes), exec (.encrypt d) s = .next t ∧ t.response = some ⟨0x00, out⟩ ∧
      exec (.encrypt d') s = .next t' ∧ t'.response = some ⟨0x00, out'⟩ ∧
      (∀ j, j < i → (toBlocks out)[j]? = (toBlocks out')[j]?) ∧ (toBlocks out)[i]? ≠ (toBlocks out')[i]?)

/-- R116: the length of the output of a data command that ends with `OK`. -/
def Obligations.OutputLengths : Prop :=
  (∀ (d : Bytes) (s : State), s.keyclass ≠ .none →
    ∃ (t : State) (out : Bytes), exec (.encrypt d) s = .next t ∧ t.response = some ⟨0x00, out⟩ ∧
      out.length = if paddingApplies s then (d.length + 8) / 8 * 8 else (d.length + 7) / 8 * 8) ∧
  (∀ (c : Bytes) (s : State), s.keyclass ≠ .none →
    ∃ (t : State) (r : Response), exec (.decrypt c) s = .next t ∧ t.response = some r ∧
      (paddingApplies s = false → r.status = 0x00 ∧ r.out.length = (c.length + 7) / 8 * 8) ∧
      (paddingApplies s = true → r.status = 0x00 → ∃ b, (decryptBuffer Config.params c s).2.getLast? = some b ∧
        r.out.length + b.toNat = (c.length + 7) / 8 * 8))

/-! ## LEGACY -/

/-- R151, R152, R155: a legacy-active `ENCRYPT` passes the zero-extended message through the three stages: stage 1 a CBC encryptor,
stage 2 a CBC decryptor, stage 3 a CBC encryptor, each from its own register, which takes the last value of its chain; no
other register changes, and nothing is padded. -/
def Obligations.LegacyEncryptStages : Prop :=
  ∀ (d : Bytes) (s : State), s.mode = .legacy → s.keyclass = .triple →
    let m := toBlocks (zext8 d)
    ∃ (t1 t2 t3 : List Block) (a b c : Block),
      t1.length = m.length ∧ t2.length = m.length ∧ t3.length = m.length ∧
      (∀ (i : Nat) (p x : Block), m[i]? = some p → (s.senc1 :: t1)[i]? = some x →
        t1[i]? = some (Config.params.desE s.k1 (xorBlock p x))) ∧
      (∀ (i : Nat) (p x : Block), t1[i]? = some p → (s.sdec2 :: t1)[i]? = some x →
        t2[i]? = some (xorBlock (Config.params.desD s.k2 p) x)) ∧
      (∀ (i : Nat) (p x : Block), t2[i]? = some p → (s.senc3 :: t3)[i]? = some x →
        t3[i]? = some (Config.params.desE s.k3 (xorBlock p x))) ∧
      (s.senc1 :: t1).getLast? = some a ∧ (s.sdec2 :: t1).getLast? = some b ∧ (s.senc3 :: t3).getLast? = some c ∧
      exec (.encrypt d) s = .next { s with senc1 := a, sdec2 := b, senc3 := c, cmdidx := s.cmdidx + 1,
                                           response := some ⟨0x00, ofBlocks t3⟩ }

/-- R151, R153, R155: a legacy-active `DECRYPT` runs the stages in the order 3, 2, 1 in the inverse directions, from the other
three registers, and unpads nothing. -/
def Obligations.LegacyDecryptStages : Prop :=
  ∀ (c : Bytes) (s : State), s.mode = .legacy → s.keyclass = .triple →
    let m := toBlocks (zext8 c)
    ∃ (u3 u2 u1 : List Block) (x3 x2 x1 : Block),
      u3.length = m.length ∧ u2.length = m.length ∧ u1.length = m.length ∧
      (∀ (i : Nat) (p x : Block), m[i]? = some p → (s.sdec3 :: m)[i]? = some x →
        u3[i]? = some (xorBlock (Config.params.desD s.k3 p) x)) ∧
      (∀ (i : Nat) (p x : Block), u3[i]? = some p → (s.senc2 :: u2)[i]? = some x →
        u2[i]? = some (Config.params.desE s.k2 (xorBlock p x))) ∧
      (∀ (i : Nat) (p x : Block), u2[i]? = some p → (s.sdec1 :: u2)[i]? = some x →
        u1[i]? = some (xorBlock (Config.params.desD s.k1 p) x)) ∧
      (s.sdec3 :: m).getLast? = some x3 ∧ (s.senc2 :: u2).getLast? = some x2 ∧ (s.sdec1 :: u2).getLast? = some x1 ∧
      exec (.decrypt c) s = .next { s with sdec3 := x3, senc2 := x2, sdec1 := x1, cmdidx := s.cmdidx + 1,
                                           response := some ⟨0x00, ofBlocks u1⟩ }

/-- R154: the block-serial form of the cascade is the whole-message form, for every primitive, state and message. -/
def Obligations.BlockSerialFormAgrees : Prop :=
  ∀ (P : Params) (m : List Block) (s : State),
    serialEncryptBlocks P m s = legacyEncryptBlocks P m s ∧ serialDecryptBlocks P m s = legacyDecryptBlocks P m s

/-- R152, R153: `PADEN`, `CONTEN`, `BASEIV`, `ENCIV`, `DECIV` have no influence on a legacy-active data command. -/
def Obligations.LegacyIgnoresFlagsAndIvs : Prop :=
  ∀ (d : Bytes) (s : State) (p c : Bool) (v e x : Block), s.mode = .legacy → s.keyclass = .triple →
    ∃ t u, exec (.encrypt d) s = .next t ∧
      exec (.encrypt d) { s with paden := p, conten := c, baseiv := v, enciv := e, deciv := x } =
        .next { t with paden := p, conten := c, baseiv := v, enciv := e, deciv := x } ∧
      exec (.decrypt d) s = .next u ∧
      exec (.decrypt d) { s with paden := p, conten := c, baseiv := v, enciv := e, deciv := x } =
        .next { u with paden := p, conten := c, baseiv := v, enciv := e, deciv := x }

/-- R156, R139: with a short key LEGACY mode answers and leaves the registers as CBC mode with that key does, the stage
registers untouched. -/
def Obligations.LegacyShortKeyIsCbc : Prop :=
  ∀ (d : Bytes) (s : State), s.keyclass = .single → s.mode = .cbc →
    ∃ t u, exec (.encrypt d) s = .next t ∧ exec (.encrypt d) { s with mode := .legacy } = .next { t with mode := .legacy } ∧
      exec (.decrypt d) s = .next u ∧ exec (.decrypt d) { s with mode := .legacy } = .next { u with mode := .legacy } ∧
      (∀ i, t.senc i = s.senc i ∧ t.sdec i = s.sdec i ∧ u.senc i = s.senc i ∧ u.sdec i = s.sdec i)

/-- R157: an encrypting and a decrypting engine brought up by `CONFIG LEGACY` and the same long key: whatever the chunks of
whole blocks on one side and the cutting of the ciphertext into chunks of whole blocks on the other, the plaintext
comes back. -/
def Obligations.LegacySelfConsistency : Prop :=
  ∀ (raw : Bytes) (e d : State) (ps : List Bytes), 8 < raw.length → (∀ p ∈ ps, p.length % 8 = 0) →
    ∃ (e0 d0 e1 : State) (r0 q0 rs : List Response),
      session [.config 0x03, .setkey raw] e = some (e0, r0) ∧ session [.config 0x03, .setkey raw] d = some (d0, q0) ∧
      session (ps.map Instr.encrypt) e0 = some (e1, rs) ∧ AllOk rs ∧
      ∀ qs : List Bytes, (∀ q ∈ qs, q.length % 8 = 0) → qs.flatten = outputs rs →
        ∃ (d1 : State) (us : List Response), session (qs.map Instr.decrypt) d0 = some (d1, us) ∧ AllOk us ∧
          outputs us = ps.flatten

/-! ## The pseudo-commands -/

/-- R83: `INIT` is `CONFIG`, `SETKEY`, `SETIV` in this order, and `REWIND` is `DISCONT`, `ENCONT`: each command ends with `OK` (an
8-byte IV for `INIT`), and what they leave. -/
def Obligations.PseudoCommandsExpand : Prop :=
  (∀ (m : Byte) (key iv : Bytes) (s : State), iv.length = 8 → ∃ (t : State) (rs : List Response) (v : Block),
    expandPseudo (.init m key iv) = [.config m, .setkey key, .setiv iv] ∧
    session (expandPseudo (.init m key iv)) s = some (t, rs) ∧ AllOk rs ∧ t.mode = modeOfArg m ∧ t.paden = true ∧
    t.conten = false ∧ t.keyclass ≠ .none ∧ blockBytes v = iv ∧ t.baseiv = v ∧ t.enciv = v ∧ t.deciv = v ∧ StagesZero t) ∧
  (∀ s : State, expandPseudo .rewind = [.discont, .encont] ∧ ∃ rs, session (expandPseudo .rewind) s =
    some ({ s with conten := true, enciv := s.baseiv, deciv := s.baseiv, cmdidx := s.cmdidx + 2,
                   response := some ⟨0x00, []⟩ }, rs) ∧ AllOk rs)

/-! ## Properties of streams -/

/-- R141: two engines in the same configuration, outside the cascade: decrypting the ciphertexts of a sequence of chunks, in
order, gives the chunks back when padding is on and their zero extensions when it is off, with status `OK` throughout,
whatever the pad policy; with `CONTEN = 1` from equal slots. A zero extension is the chunk itself exactly when the chunk is a
whole number of blocks. -/
def Obligations.RoundTrip : Prop :=
  (∀ (ps : List Bytes) (s s' : State), s.keyclass ≠ .none → legacyActive s = false → s'.mode = s.mode → SameKey s s' →
    s'.paden = s.paden → s'.conten = s.conten → s'.baseiv = s.baseiv → (s.conten = true → s.enciv = s'.deciv) →
    ∃ (t t' : State) (rs qs : List Response),
      session (ps.map Instr.encrypt) s = some (t, rs) ∧ AllOk rs ∧
      session ((rs.map Response.out).map Instr.decrypt) s' = some (t', qs) ∧ AllOk qs ∧
      qs.map Response.out = if s.paden then ps else ps.map zext8) ∧
  (∀ p : Bytes, zext8 p = p ↔ p.length % 8 = 0)

/-- R143: a continuous stream of chunks, each but the last a multiple of 8 and padded only at the last, gives the bytes of the one
discontinuous, padded call on the whole message. -/
def Obligations.ContinuousBufferEquivalence : Prop :=
  ∀ (ps : List Bytes) (last : Bytes) (s s' : State), (∀ p ∈ ps, p.length % 8 = 0) → s.keyclass ≠ .none →
    legacyActive s = false → s.enciv = s.baseiv → s'.mode = s.mode → SameKey s s' → s'.baseiv = s.baseiv →
    s'.conten = false → s'.paden = true →
    ∃ (t u : State) (rs : List Response),
      session ([.encont, .dispad] ++ ps.map Instr.encrypt ++ [.enpad, .encrypt last]) s = some (t, rs) ∧ AllOk rs ∧
      exec (.encrypt (ps.flatten ++ last)) s' = .next u ∧ u.response = some ⟨0x00, outputs rs⟩

/-- R144: with `CONTEN = 0`, outside the cascade (whose stages always chain, R150), the same command twice gives the same response
twice and leaves the registers as they were. -/
def Obligations.DiscontinuousIsolation : Prop :=
  ∀ (d : Bytes) (s : State), s.conten = false → legacyActive s = false →
    (∃ t u, exec (.encrypt d) s = .next t ∧ exec (.encrypt d) t = .next u ∧ u.response = t.response ∧
      registers t = registers s) ∧
    (∃ t u, exec (.decrypt d) s = .next t ∧ exec (.decrypt d) t = .next u ∧ u.response = t.response ∧
      registers t = registers s)

/-- R25, R126, R153: the two directions chain through disjoint registers, in every mode: an `ENCRYPT` and a `DECRYPT` may be
issued in either order, and neither changes what the other answers. -/
def Obligations.DirectionsIndependent : Prop :=
  ∀ (d c : Bytes) (s : State), ∃ te ted td tde,
    exec (.encrypt d) s = .next te ∧ exec (.decrypt c) te = .next ted ∧
    exec (.decrypt c) s = .next td ∧ exec (.encrypt d) td = .next tde ∧
    ted.response = td.response ∧ tde.response = te.response ∧ registers ted = registers tde

/-! ## Frames and whole-machine rules -/

/-- R126, R133, R135, R152: what `ENCRYPT` leaves unchanged, on every path: every register but `ENCIV`, which only CBC with
`CONTEN = 1` writes, and `SENC[1]`, `SDEC[2]`, `SENC[3]`, which only the cascade writes. -/
def Obligations.EncryptFrame : Prop :=
  ∀ (d : Bytes) (s : State), ∃ t, exec (.encrypt d) s = .next t ∧
    t.mode = s.mode ∧ t.paden = s.paden ∧ t.conten = s.conten ∧ SameKey s t ∧ t.baseiv = s.baseiv ∧ t.deciv = s.deciv ∧
    t.senc2 = s.senc2 ∧ t.sdec1 = s.sdec1 ∧ t.sdec3 = s.sdec3 ∧ t.pending = s.pending ∧ t.cmdidx = s.cmdidx + 1 ∧
    (¬(cbcMode s = true ∧ s.conten = true) → t.enciv = s.enciv) ∧
    (legacyActive s = false → t.senc1 = s.senc1 ∧ t.sdec2 = s.sdec2 ∧ t.senc3 = s.senc3)

/-- R126, R136, R138, R153: what `DECRYPT` leaves unchanged, on every path: every register but `DECIV`, which only CBC with
`CONTEN = 1` writes, and `SDEC[3]`, `SENC[2]`, `SDEC[1]`, which only the cascade writes. -/
def Obligations.DecryptFrame : Prop :=
  ∀ (d : Bytes) (s : State), ∃ t, exec (.decrypt d) s = .next t ∧
    t.mode = s.mode ∧ t.paden = s.paden ∧ t.conten = s.conten ∧ SameKey s t ∧ t.baseiv = s.baseiv ∧ t.enciv = s.enciv ∧
    t.senc1 = s.senc1 ∧ t.sdec2 = s.sdec2 ∧ t.senc3 = s.senc3 ∧ t.pending = s.pending ∧ t.cmdidx = s.cmdidx + 1 ∧
    (¬(cbcMode s = true ∧ s.conten = true) → t.deciv = s.deciv) ∧
    (legacyActive s = false → t.sdec1 = s.sdec1 ∧ t.senc2 = s.senc2 ∧ t.sdec3 = s.sdec3)

/-- R21, R29: the "written by" column of the state table, over all commands: a register changes only through the commands named
for it; of the sub-keys this is said while a key is loaded. -/
def Obligations.RegistersWrittenOnlyByTheirCommands : Prop :=
  ∀ (i : Instr) (s : State), ∃ t, exec i s = .next t ∧
    (t.mode ≠ s.mode → ∃ a, i = .config a) ∧
    (t.paden ≠ s.paden → (∃ a, i = .config a) ∨ i = .enpad ∨ i = .dispad) ∧
    (t.conten ≠ s.conten → (∃ a, i = .config a) ∨ i = .encont ∨ i = .discont) ∧
    (t.keyclass ≠ s.keyclass → (∃ a, i = .config a) ∨ ∃ k, i = .setkey k) ∧
    (t.keyclass ≠ .none → ¬(t.k1 = s.k1 ∧ t.k2 = s.k2 ∧ t.k3 = s.k3) → ∃ k, i = .setkey k) ∧
    (t.baseiv ≠ s.baseiv → (∃ a, i = .config a) ∨ ∃ v, i = .setiv v) ∧
    (t.enciv ≠ s.enciv → (∃ a, i = .config a) ∨ (∃ v, i = .setiv v) ∨ i = .discont ∨ ∃ d, i = .encrypt d) ∧
    (t.deciv ≠ s.deciv → (∃ a, i = .config a) ∨ (∃ v, i = .setiv v) ∨ i = .discont ∨ ∃ d, i = .decrypt d) ∧
    (∀ n, t.senc n ≠ s.senc n ∨ t.sdec n ≠ s.sdec n →
      (∃ a, i = .config a) ∨ (legacyActive s = true ∧ ((∃ d, i = .encrypt d) ∨ ∃ d, i = .decrypt d)))

/-- R160, R51, R22, R78: every command completes, with exactly one response: its status is one of the four codes a legal command
can end with, its output is empty unless a data command ended with `OK`, and `cmdidx` advances by 1 (for `CONFIG`: log 9). -/
def Obligations.EveryCommandCompletes : Prop :=
  ∀ (i : Instr) (s : State), ∃ (t : State) (r : Response), exec i s = .next t ∧ t.response = some r ∧
    r.status ∈ [(0x00 : Byte), 0x02, 0x03, 0x04] ∧ t.cmdidx = s.cmdidx + 1 ∧ t.pending = s.pending ∧
    (r.out ≠ [] → r.status = 0x00 ∧ ((∃ d, i = .encrypt d) ∨ ∃ d, i = .decrypt d))

/-- R160: a step always ends in a next state, whatever the host does. What it leaves of the host's events is the model's: the
list itself (DESIGN CHOICE, log 1), the idle step on the empty list (DEDUCED, log 2), and that a RESET keeps the later events
(DESIGN CHOICE, log 8). -/
def Obligations.StepAlwaysContinues : Prop :=
  ∀ s : State, ∃ t, step s = .next t ∧ t.pending = s.pending.tail

/-- R166, R16: a command, legal or not, that ends with an error status has an empty `OUT` and leaves every register as it was;
nothing records the error, and `cmdidx` advances by 1. -/
def Obligations.ErrorsAreAtomic : Prop :=
  ∀ (c : Command) (s t : State) (r : Response), runCommand c s = .next t → t.response = some r → r.status ≠ 0x00 →
    r.out = [] ∧ t = { s with cmdidx := s.cmdidx + 1, response := some r }

/-- R161 to R165, R167: which command raises which error, exactly when, and that each command ends with one status: illegal before
anything else, no key before the padding. -/
def Obligations.ErrorCauses : Prop :=
  ∀ (c : Command) (s : State), ∃ (t : State) (r : Response), runCommand c s = .next t ∧ t.response = some r ∧
    (r.status = 0x01 ↔ ∃ e, decode c = .error e) ∧
    (r.status = 0x02 ↔ s.keyclass = .none ∧
      ((∃ d, decode c = .ok (.encrypt d)) ∨ ∃ d, decode c = .ok (.decrypt d))) ∧
    (r.status = 0x03 ↔ ∃ iv, decode c = .ok (.setiv iv) ∧ iv.length ≠ 8) ∧
    (r.status = 0x04 ↔ ∃ d, decode c = .ok (.decrypt d) ∧ s.keyclass ≠ .none ∧ paddingApplies s = true ∧
      unpad Config.padPolicy (decryptBuffer Config.params d s).2 = .error .pad) ∧
    r.status ∈ [(0x00 : Byte), 0x01, 0x02, 0x03, 0x04]

/-- R22: nothing reads `cmdidx`, and nothing reads the last response: a command does the same with any value of them, and the
count goes on by 1 from the one given. That it does so for `CONFIG` too, as R22 and R182 say, against the 0 in R38's table, is
the model's reading (DEDUCED, log 9). -/
def Obligations.CountIsNotRead : Prop :=
  ∀ (i : Instr) (s : State) (n : Nat) (q : Option Response), ∃ t, exec i s = .next t ∧
    exec i { s with cmdidx := n, response := q } = .next { t with cmdidx := n + 1 }

/-- R23, R37: a sub-key that no rule reads influences nothing: two states that differ only there answer every command alike and go
on differing only there. -/
def Obligations.UnreadKeysInfluenceNothing : Prop :=
  ∀ (i : Instr) (s s' : State), readableRegisters s = readableRegisters s' →
    ∃ t t', exec i s = .next t ∧ exec i s' = .next t' ∧ t.response = t'.response ∧
      readableRegisters t = readableRegisters t'

/-- The model's tally of primitive calls (`primCalls`, `encryptCalls`, `decryptCalls`: DESIGN CHOICE, log 15), kept beside the
meanings and not counted in what `exec` runs, agrees with R65: `n` for a data command on `n` blocks with a short key and `3n` with a
long one, the cascade included; and the calls it lists for one block, run in order, are the block transforms of R131, R132, R139. -/
def Obligations.PrimitiveCallCount : Prop :=
  ∀ (d : Bytes) (s : State), s.keyclass ≠ .none →
    let per := if s.keyclass = .single then 1 else 3
    (∃ (t : State) (out : Bytes), exec (.encrypt d) s = .next t ∧ t.response = some ⟨0x00, out⟩ ∧
      primCalls (.encrypt d) s = per * (out.length / 8)) ∧
    primCalls (.decrypt d) s = per * ((zext8 d).length / 8) ∧
    (∀ b, runCalls Config.params s (encryptCalls s.keyclass) b = encryptBlock Config.params s b) ∧
    (∀ b, runCalls Config.params s (decryptCalls s.keyclass) b = decryptBlock Config.params s b)

/-! ## Invariants -/

/-- R124, R39 (b): every step keeps `CONTEN = 0` implying `ENCIV = DECIV = BASEIV`. -/
def Obligations.ChainInvariantKept : Prop :=
  ∀ s t : State, ChainInv s → step s = .next t → ChainInv t

/-- R158: every step keeps `SENC[1] = SDEC[2]` and `SENC[2] = SDEC[1]`. -/
def Obligations.StagePairsKept : Prop :=
  ∀ s t : State, StagePairInv s → step s = .next t → StagePairInv t

/-- R39 (d), R33, R150: every step keeps the stage registers at `zeros(8)` outside LEGACY mode and before a key is loaded. -/
def Obligations.StageZerosKept : Prop :=
  ∀ s t : State, StageZeroInv s → step s = .next t → StageZeroInv t

/-- The three invariants hold right after reset. -/
def Obligations.InvariantsAtReset : Prop :=
  ChainInv State.reset ∧ StagePairInv State.reset ∧ StageZeroInv State.reset

/-! ## Views and codes -/

/-- R27, R28: the codes of `MODE` and `KEYCLASS`, the bits of the control register, and its value after reset. -/
def Obligations.ControlRegisterView : Prop :=
  (Mode.code .ecb = 1 ∧ Mode.code .cbc = 2 ∧ Mode.code .legacy = 3 ∧
    KeyClass.code .none = 0 ∧ KeyClass.code .single = 1 ∧ KeyClass.code .triple = 2) ∧
  (∀ s : State,
    (ctrl s).extractLsb' 0 2 = (match s.mode with | .ecb => 1 | .cbc => 2 | .legacy => 3) ∧
    (ctrl s).getLsbD 2 = s.paden ∧ (ctrl s).getLsbD 3 = s.conten ∧
    (ctrl s).extractLsb' 4 2 = (match s.keyclass with | .none => 0 | .single => 1 | .triple => 2) ∧
    (ctrl s).extractLsb' 0 2 = s.mode.code ∧ (ctrl s).extractLsb' 4 2 = s.keyclass.code ∧
    (ctrl s).extractLsb' 0 2 ≠ 0 ∧ (ctrl s).extractLsb' 4 2 ≠ 3) ∧
  ctrl State.reset = 0b000110

/-- R12, R71: the 64-bit view of a block has byte 0 most significant, and is a bijection. -/
def Obligations.BlockViewOrder : Prop :=
  (∀ b : Block, (blockView b).extractLsb' 56 8 = b.b0 ∧ (blockView b).extractLsb' 48 8 = b.b1 ∧
    (blockView b).extractLsb' 40 8 = b.b2 ∧ (blockView b).extractLsb' 32 8 = b.b3 ∧
    (blockView b).extractLsb' 24 8 = b.b4 ∧ (blockView b).extractLsb' 16 8 = b.b5 ∧
    (blockView b).extractLsb' 8 8 = b.b6 ∧ (blockView b).extractLsb' 0 8 = b.b7 ∧ blockOfView (blockView b) = b) ∧
  (∀ v : BitVec 64, blockView (blockOfView v) = v)
end

