-- ==== Sys2Proof/Laws/Operands.lean ====
section
/-! SUPPORT. What the operands of `Machine/Operands.lean` do: cutting a message into blocks and writing blocks out are
inverse, XOR cancels; and the chaining loops of `Machine/Ops.lean`. -/

namespace Sys2Proof.Machine

/-! ## Blocks and bytes -/

@[simp] theorem length_rep (v : Byte) (n : Nat) : (rep v n).length = n := by simp [rep]

@[simp] theorem length_zeros (n : Nat) : (zeros n).length = n := by simp [zeros]

@[simp] theorem length_blockBytes (b : Block) : (blockBytes b).length = 8 := rfl

@[simp] theorem blockOf_blockBytes (b : Block) : blockOf (blockBytes b) = b := rfl

theorem blockBytes_blockOf {d : Bytes} (h : d.length = 8) : blockBytes (blockOf d) = d := by
  match d, h with
  | [_, _, _, _, _, _, _, _], _ => rfl

theorem blockBytes_injective {a b : Block} (h : blockBytes a = blockBytes b) : a = b := by
  rw [← blockOf_blockBytes a, h, blockOf_blockBytes]

theorem xorBlock_cancel (a b : Block) : xorBlock (xorBlock a b) b = a := by
  simp [xorBlock]

theorem xorBlock_left_injective {a b x : Block} (h : xorBlock a x = xorBlock b x) : a = b := by
  rw [← xorBlock_cancel a x, h, xorBlock_cancel]

@[simp] theorem xorBlock_zeros (a : Block) : xorBlock a Block.zeros = a := by
  simp [xorBlock, Block.zeros]

@[simp] theorem toBlocks_blockBytes_append (b : Block) (d : Bytes) :
    toBlocks (blockBytes b ++ d) = b :: toBlocks d := rfl

/-- A sequence of at least eight bytes begins with a block. -/
theorem exists_block_append {d : Bytes} (h : 8 ≤ d.length) : ∃ b e, d = blockBytes b ++ e := by
  match d, h with
  | a0 :: a1 :: a2 :: a3 :: a4 :: a5 :: a6 :: a7 :: e, _ => exact ⟨⟨a0, a1, a2, a3, a4, a5, a6, a7⟩, e, rfl⟩

theorem toBlocks_of_short {d : Bytes} (h : d.length < 8) : toBlocks d = [] := by
  match d, h with
  | [], _ => rfl
  | [_], _ => rfl
  | [_, _], _ => rfl
  | [_, _, _], _ => rfl
  | [_, _, _, _], _ => rfl
  | [_, _, _, _, _], _ => rfl
  | [_, _, _, _, _, _], _ => rfl
  | [_, _, _, _, _, _, _], _ => rfl

/-- Induction on a message block by block. -/
theorem blocks_induction {motive : Bytes → Prop} (short : ∀ d, d.length < 8 → motive d)
    (block : ∀ b d, motive d → motive (blockBytes b ++ d)) : ∀ d, motive d := by
  intro d
  induction hn : d.length using Nat.strongRecOn generalizing d with
  | _ n ih =>
    by_cases h : d.length < 8
    · exact short d h
    · obtain ⟨b, e, rfl⟩ := exists_block_append (Nat.le_of_not_lt h)
      exact block b e (ih e.length (by simp at hn; omega) e rfl)

theorem length_toBlocks (d : Bytes) : (toBlocks d).length = d.length / 8 := by
  induction d using blocks_induction with
  | short d h => rw [toBlocks_of_short h, Nat.div_eq_of_lt h]; rfl
  | block b d ih => simp [ih]

theorem length_ofBlocks (bs : List Block) : (ofBlocks bs).length = 8 * bs.length := by
  induction bs with
  | nil => rfl
  | cons b bs ih => simp [ofBlocks, ih]; omega

@[simp] theorem toBlocks_ofBlocks (bs : List Block) : toBlocks (ofBlocks bs) = bs := by
  induction bs with
  | nil => rfl
  | cons b bs ih => simp [ofBlocks, ih]

theorem ofBlocks_toBlocks (d : Bytes) (h : d.length % 8 = 0) : ofBlocks (toBlocks d) = d := by
  induction d using blocks_induction with
  | short d hs =>
    have : d = [] := List.length_eq_zero_iff.mp (by omega)
    subst this; rfl
  | block b d ih => simp at h; simp [ofBlocks, ih h]

theorem toBlocks_append (d e : Bytes) (h : d.length % 8 = 0) : toBlocks (d ++ e) = toBlocks d ++ toBlocks e := by
  induction d using blocks_induction with
  | short d hs =>
    have : d = [] := List.length_eq_zero_iff.mp (by omega)
    subst this; rfl
  | block b d ih => simp at h; simp [List.append_assoc, ih h]

theorem ofBlocks_append (as bs : List Block) : ofBlocks (as ++ bs) = ofBlocks as ++ ofBlocks bs := by
  induction as with
  | nil => rfl
  | cons a as ih => simp [ofBlocks, ih]

/-! ## The chaining loops -/

variable (f g : Block → Block)

@[simp] theorem length_cbcEncryptLoop (x : Block) (m : List Block) : (cbcEncryptLoop f x m).1.length = m.length := by
  induction m generalizing x with
  | nil => rfl
  | cons p ps ih => simp [cbcEncryptLoop, ih]

@[simp] theorem length_cbcDecryptLoop (x : Block) (m : List Block) : (cbcDecryptLoop f x m).1.length = m.length := by
  induction m generalizing x with
  | nil => rfl
  | cons p ps ih => simp [cbcDecryptLoop, ih]

/-- Every ciphertext block is the transform of its plaintext block XOR the block before it (R135, R151). -/
theorem cbcEncryptLoop_block {x : Block} {m : List Block} {i : Nat} {p y : Block} (hp : m[i]? = some p)
    (hy : (x :: (cbcEncryptLoop f x m).1)[i]? = some y) : (cbcEncryptLoop f x m).1[i]? = some (f (xorBlock p y)) := by
  induction m generalizing x i with
  | nil => simp at hp
  | cons q qs ih =>
    cases i with
    | zero => simp at hp hy; simp [cbcEncryptLoop, hp, hy]
    | succ i => simp [cbcEncryptLoop] at hp hy ⊢; exact ih hp hy

/-- The final running value is the last ciphertext block, or the start value (R125, R135). -/
theorem cbcEncryptLoop_last (x : Block) (m : List Block) :
    (x :: (cbcEncryptLoop f x m).1).getLast? = some (cbcEncryptLoop f x m).2 := by
  induction m generalizing x with
  | nil => rfl
  | cons p ps ih => simpa [cbcEncryptLoop] using ih (f (xorBlock p x))

/-- Every plaintext block is the transform of its ciphertext block XOR the ciphertext block before it (R138, R151). -/
theorem cbcDecryptLoop_block {x : Block} {m : List Block} {i : Nat} {c y : Block} (hc : m[i]? = some c)
    (hy : (x :: m)[i]? = some y) : (cbcDecryptLoop f x m).1[i]? = some (xorBlock (f c) y) := by
  induction m generalizing x i with
  | nil => simp at hc
  | cons q qs ih =>
    cases i with
    | zero => simp at hc hy; simp [cbcDecryptLoop, hc, hy]
    | succ i => simp [cbcDecryptLoop] at hc hy ⊢; exact ih hc hy

/-- The final running value is the last ciphertext block consumed, or the start value (R125, R138). -/
theorem cbcDecryptLoop_last (x : Block) (m : List Block) : (x :: m).getLast? = some (cbcDecryptLoop f x m).2 := by
  induction m generalizing x with
  | nil => rfl
  | cons c cs ih => simpa [cbcDecryptLoop] using ih c

theorem cbcEncryptLoop_append (x : Block) (m n : List Block) :
    cbcEncryptLoop f x (m ++ n) =
      ((cbcEncryptLoop f x m).1 ++ (cbcEncryptLoop f (cbcEncryptLoop f x m).2 n).1,
        (cbcEncryptLoop f (cbcEncryptLoop f x m).2 n).2) := by
  induction m generalizing x with
  | nil => rfl
  | cons p ps ih => simp [cbcEncryptLoop, ih]

theorem cbcDecryptLoop_append (x : Block) (m n : List Block) :
    cbcDecryptLoop f x (m ++ n) =
      ((cbcDecryptLoop f x m).1 ++ (cbcDecryptLoop f (cbcDecryptLoop f x m).2 n).1,
        (cbcDecryptLoop f (cbcDecryptLoop f x m).2 n).2) := by
  induction m generalizing x with
  | nil => rfl
  | cons p ps ih => simp [cbcDecryptLoop, ih]

variable {f g}

/-- Decrypting what a loop encrypted, from the same start value, gives the message back, and both chains end alike. -/
theorem cbcDecryptLoop_cbcEncryptLoop (h : ∀ b, g (f b) = b) (x : Block) (m : List Block) :
    cbcDecryptLoop g x (cbcEncryptLoop f x m).1 = (m, (cbcEncryptLoop f x m).2) := by
  induction m generalizing x with
  | nil => rfl
  | cons p ps ih => simp [cbcEncryptLoop, cbcDecryptLoop, ih, h, xorBlock_cancel]

/-- Encrypting what a loop decrypted, from the same start value, gives the message back, and both chains end alike. -/
theorem cbcEncryptLoop_cbcDecryptLoop (h : ∀ b, f (g b) = b) (x : Block) (m : List Block) :
    cbcEncryptLoop f x (cbcDecryptLoop g x m).1 = (m, (cbcDecryptLoop g x m).2) := by
  induction m generalizing x with
  | nil => rfl
  | cons c cs ih => simp [cbcEncryptLoop, cbcDecryptLoop, xorBlock_cancel, h, ih]

end Sys2Proof.Machine
end

