-- ==== Sys2Proof/Laws/Padder.lean ====
section
/-! SUPPORT. What the Padder's functions do to the length of a sequence, and when `unpad` answers what. -/

namespace Sys2Proof.Machine

/-- The number of bytes `pad` appends (R110). -/
theorem length_pad (d : Bytes) : (pad d).length = (d.length + 8) / 8 * 8 := by
  simp [pad]; omega

/-- `zext8` reaches the next multiple of 8 (R115, R116). -/
theorem length_zext8 (d : Bytes) : (zext8 d).length = (d.length + 7) / 8 * 8 := by
  simp only [zext8]; split
  · omega
  · simp; omega

theorem zext8_of_aligned {d : Bytes} (h : d.length % 8 = 0) : zext8 d = d := by simp [zext8, h]

theorem ofBlocks_toBlocks_zext8 (d : Bytes) : ofBlocks (toBlocks (zext8 d)) = zext8 d :=
  ofBlocks_toBlocks _ (by rw [length_zext8]; omega)

theorem zext8_ofBlocks (bs : List Block) : zext8 (ofBlocks bs) = ofBlocks bs :=
  zext8_of_aligned (by rw [length_ofBlocks]; omega)

/-- The test of R113: the last byte does not exceed the length. -/
theorem padAccepted_lenient_iff (d : Bytes) (b : Byte) : padAccepted .lenient d b = true ↔ b.toNat ≤ d.length := by
  simp [padAccepted]

/-- The test of R114: the last byte is 1 to 8, and so are all of the last that many bytes. -/
theorem padAccepted_strict_iff (d : Bytes) (b : Byte) : padAccepted .strict d b = true ↔
    1 ≤ b.toNat ∧ b.toNat ≤ 8 ∧ ∀ x ∈ d.drop (d.length - b.toNat), x = b := by
  simp only [padAccepted, Bool.and_eq_true, decide_eq_true_eq, List.all_eq_true, beq_iff_eq, and_assoc]

/-- All that `unpad` can answer with `OK` (R112 to R114). -/
theorem unpad_ok {policy : PadPolicy} {d x : Bytes} (h : unpad policy d = .ok x) :
    ∃ b, d.getLast? = some b ∧ padAccepted policy d b = true ∧ x = d.take (d.length - b.toNat) := by
  unfold unpad at h
  split at h
  · cases h
  · rename_i b hb
    split at h
    · rename_i ha; cases h; exact ⟨b, hb, ha, rfl⟩
    · cases h

/-- The only error `unpad` raises is `ERR_PAD` (R112). -/
theorem unpad_error {policy : PadPolicy} {d : Bytes} {e : CmdError} (h : unpad policy d = .error e) : e = .pad := by
  unfold unpad at h
  split at h
  · cases h; rfl
  · split at h <;> cases h; rfl

/-- `unpad` on a buffer with a last byte (R112). -/
theorem unpad_concat (policy : PadPolicy) (d : Bytes) (b : Byte) :
    unpad policy (d ++ [b]) =
      if padAccepted policy (d ++ [b]) b then .ok ((d ++ [b]).take ((d ++ [b]).length - b.toNat)) else .error .pad := by
  simp [unpad]

/-- Both policies accept a tail of `n` bytes of value `n`, `n` from 1 to 8 (R114). -/
theorem unpad_append_rep (policy : PadPolicy) (d : Bytes) {n : Nat} (h1 : 1 ≤ n) (h8 : n ≤ 8) :
    unpad policy (d ++ rep (BitVec.ofNat 8 n) n) = .ok d := by
  have hn : (BitVec.ofNat 8 n).toNat = n := by simp; omega
  have hlast : (d ++ rep (BitVec.ofNat 8 n) n).getLast? = some (BitVec.ofNat 8 n) := by
    rw [List.getLast?_append_of_ne_nil _ (by simp [rep]; omega)]
    simp [rep, List.getLast?_replicate]; omega
  have hacc : padAccepted policy (d ++ rep (BitVec.ofNat 8 n) n) (BitVec.ofNat 8 n) = true := by
    cases policy
    · simp [padAccepted, hn]
    · simp only [padAccepted, hn, List.length_append, length_rep, Nat.add_sub_cancel, List.drop_left]
      simp [rep, h1, h8]
  simp [unpad, hlast, hacc, hn]

end Sys2Proof.Machine
end

