-- ==== Sys2Proof/Laws/State.lean ====
section
/-! SUPPORT. For each named update of the state, one lemma per field: what the field is afterwards. No later proof unfolds a
record update. -/

namespace Sys2Proof.Machine

variable (s : State)

/-! ## `setEnciv` -/

@[simp] theorem State.mode_setEnciv (v : Block) : (s.setEnciv v).mode = s.mode := rfl
@[simp] theorem State.paden_setEnciv (v : Block) : (s.setEnciv v).paden = s.paden := rfl
@[simp] theorem State.conten_setEnciv (v : Block) : (s.setEnciv v).conten = s.conten := rfl
@[simp] theorem State.keyclass_setEnciv (v : Block) : (s.setEnciv v).keyclass = s.keyclass := rfl
@[simp] theorem State.k1_setEnciv (v : Block) : (s.setEnciv v).k1 = s.k1 := rfl
@[simp] theorem State.k2_setEnciv (v : Block) : (s.setEnciv v).k2 = s.k2 := rfl
@[simp] theorem State.k3_setEnciv (v : Block) : (s.setEnciv v).k3 = s.k3 := rfl
@[simp] theorem State.baseiv_setEnciv (v : Block) : (s.setEnciv v).baseiv = s.baseiv := rfl
@[simp] theorem State.enciv_setEnciv (v : Block) : (s.setEnciv v).enciv = v := rfl
@[simp] theorem State.deciv_setEnciv (v : Block) : (s.setEnciv v).deciv = s.deciv := rfl
@[simp] theorem State.senc1_setEnciv (v : Block) : (s.setEnciv v).senc1 = s.senc1 := rfl
@[simp] theorem State.senc2_setEnciv (v : Block) : (s.setEnciv v).senc2 = s.senc2 := rfl
@[simp] theorem State.senc3_setEnciv (v : Block) : (s.setEnciv v).senc3 = s.senc3 := rfl
@[simp] theorem State.sdec1_setEnciv (v : Block) : (s.setEnciv v).sdec1 = s.sdec1 := rfl
@[simp] theorem State.sdec2_setEnciv (v : Block) : (s.setEnciv v).sdec2 = s.sdec2 := rfl
@[simp] theorem State.sdec3_setEnciv (v : Block) : (s.setEnciv v).sdec3 = s.sdec3 := rfl
@[simp] theorem State.cmdidx_setEnciv (v : Block) : (s.setEnciv v).cmdidx = s.cmdidx := rfl
@[simp] theorem State.pending_setEnciv (v : Block) : (s.setEnciv v).pending = s.pending := rfl
@[simp] theorem State.response_setEnciv (v : Block) : (s.setEnciv v).response = s.response := rfl

/-! ## `setDeciv` -/

@[simp] theorem State.mode_setDeciv (v : Block) : (s.setDeciv v).mode = s.mode := rfl
@[simp] theorem State.paden_setDeciv (v : Block) : (s.setDeciv v).paden = s.paden := rfl
@[simp] theorem State.conten_setDeciv (v : Block) : (s.setDeciv v).conten = s.conten := rfl
@[simp] theorem State.keyclass_setDeciv (v : Block) : (s.setDeciv v).keyclass = s.keyclass := rfl
@[simp] theorem State.k1_setDeciv (v : Block) : (s.setDeciv v).k1 = s.k1 := rfl
@[simp] theorem State.k2_setDeciv (v : Block) : (s.setDeciv v).k2 = s.k2 := rfl
@[simp] theorem State.k3_setDeciv (v : Block) : (s.setDeciv v).k3 = s.k3 := rfl
@[simp] theorem State.baseiv_setDeciv (v : Block) : (s.setDeciv v).baseiv = s.baseiv := rfl
@[simp] theorem State.enciv_setDeciv (v : Block) : (s.setDeciv v).enciv = s.enciv := rfl
@[simp] theorem State.deciv_setDeciv (v : Block) : (s.setDeciv v).deciv = v := rfl
@[simp] theorem State.senc1_setDeciv (v : Block) : (s.setDeciv v).senc1 = s.senc1 := rfl
@[simp] theorem State.senc2_setDeciv (v : Block) : (s.setDeciv v).senc2 = s.senc2 := rfl
@[simp] theorem State.senc3_setDeciv (v : Block) : (s.setDeciv v).senc3 = s.senc3 := rfl
@[simp] theorem State.sdec1_setDeciv (v : Block) : (s.setDeciv v).sdec1 = s.sdec1 := rfl
@[simp] theorem State.sdec2_setDeciv (v : Block) : (s.setDeciv v).sdec2 = s.sdec2 := rfl
@[simp] theorem State.sdec3_setDeciv (v : Block) : (s.setDeciv v).sdec3 = s.sdec3 := rfl
@[simp] theorem State.cmdidx_setDeciv (v : Block) : (s.setDeciv v).cmdidx = s.cmdidx := rfl
@[simp] theorem State.pending_setDeciv (v : Block) : (s.setDeciv v).pending = s.pending := rfl
@[simp] theorem State.response_setDeciv (v : Block) : (s.setDeciv v).response = s.response := rfl

/-! ## `setPaden` -/

@[simp] theorem State.mode_setPaden (v : Bool) : (s.setPaden v).mode = s.mode := rfl
@[simp] theorem State.paden_setPaden (v : Bool) : (s.setPaden v).paden = v := rfl
@[simp] theorem State.conten_setPaden (v : Bool) : (s.setPaden v).conten = s.conten := rfl
@[simp] theorem State.keyclass_setPaden (v : Bool) : (s.setPaden v).keyclass = s.keyclass := rfl
@[simp] theorem State.k1_setPaden (v : Bool) : (s.setPaden v).k1 = s.k1 := rfl
@[simp] theorem State.k2_setPaden (v : Bool) : (s.setPaden v).k2 = s.k2 := rfl
@[simp] theorem State.k3_setPaden (v : Bool) : (s.setPaden v).k3 = s.k3 := rfl
@[simp] theorem State.baseiv_setPaden (v : Bool) : (s.setPaden v).baseiv = s.baseiv := rfl
@[simp] theorem State.enciv_setPaden (v : Bool) : (s.setPaden v).enciv = s.enciv := rfl
@[simp] theorem State.deciv_setPaden (v : Bool) : (s.setPaden v).deciv = s.deciv := rfl
@[simp] theorem State.senc1_setPaden (v : Bool) : (s.setPaden v).senc1 = s.senc1 := rfl
@[simp] theorem State.senc2_setPaden (v : Bool) : (s.setPaden v).senc2 = s.senc2 := rfl
@[simp] theorem State.senc3_setPaden (v : Bool) : (s.setPaden v).senc3 = s.senc3 := rfl
@[simp] theorem State.sdec1_setPaden (v : Bool) : (s.setPaden v).sdec1 = s.sdec1 := rfl
@[simp] theorem State.sdec2_setPaden (v : Bool) : (s.setPaden v).sdec2 = s.sdec2 := rfl
@[simp] theorem State.sdec3_setPaden (v : Bool) : (s.setPaden v).sdec3 = s.sdec3 := rfl
@[simp] theorem State.cmdidx_setPaden (v : Bool) : (s.setPaden v).cmdidx = s.cmdidx := rfl
@[simp] theorem State.pending_setPaden (v : Bool) : (s.setPaden v).pending = s.pending := rfl
@[simp] theorem State.response_setPaden (v : Bool) : (s.setPaden v).response = s.response := rfl

/-! ## `setConten` -/

@[simp] theorem State.mode_setConten (v : Bool) : (s.setConten v).mode = s.mode := rfl
@[simp] theorem State.paden_setConten (v : Bool) : (s.setConten v).paden = s.paden := rfl
@[simp] theorem State.conten_setConten (v : Bool) : (s.setConten v).conten = v := rfl
@[simp] theorem State.keyclass_setConten (v : Bool) : (s.setConten v).keyclass = s.keyclass := rfl
@[simp] theorem State.k1_setConten (v : Bool) : (s.setConten v).k1 = s.k1 := rfl
@[simp] theorem State.k2_setConten (v : Bool) : (s.setConten v).k2 = s.k2 := rfl
@[simp] theorem State.k3_setConten (v : Bool) : (s.setConten v).k3 = s.k3 := rfl
@[simp] theorem State.baseiv_setConten (v : Bool) : (s.setConten v).baseiv = s.baseiv := rfl
@[simp] theorem State.enciv_setConten (v : Bool) : (s.setConten v).enciv = s.enciv := rfl
@[simp] theorem State.deciv_setConten (v : Bool) : (s.setConten v).deciv = s.deciv := rfl
@[simp] theorem State.senc1_setConten (v : Bool) : (s.setConten v).senc1 = s.senc1 := rfl
@[simp] theorem State.senc2_setConten (v : Bool) : (s.setConten v).senc2 = s.senc2 := rfl
@[simp] theorem State.senc3_setConten (v : Bool) : (s.setConten v).senc3 = s.senc3 := rfl
@[simp] theorem State.sdec1_setConten (v : Bool) : (s.setConten v).sdec1 = s.sdec1 := rfl
@[simp] theorem State.sdec2_setConten (v : Bool) : (s.setConten v).sdec2 = s.sdec2 := rfl
@[simp] theorem State.sdec3_setConten (v : Bool) : (s.setConten v).sdec3 = s.sdec3 := rfl
@[simp] theorem State.cmdidx_setConten (v : Bool) : (s.setConten v).cmdidx = s.cmdidx := rfl
@[simp] theorem State.pending_setConten (v : Bool) : (s.setConten v).pending = s.pending := rfl
@[simp] theorem State.response_setConten (v : Bool) : (s.setConten v).response = s.response := rfl

/-! ## `loadSingle` -/

@[simp] theorem State.mode_loadSingle (k : Block) : (s.loadSingle k).mode = s.mode := rfl
@[simp] theorem State.paden_loadSingle (k : Block) : (s.loadSingle k).paden = s.paden := rfl
@[simp] theorem State.conten_loadSingle (k : Block) : (s.loadSingle k).conten = s.conten := rfl
@[simp] theorem State.keyclass_loadSingle (k : Block) : (s.loadSingle k).keyclass = .single := rfl
@[simp] theorem State.k1_loadSingle (k : Block) : (s.loadSingle k).k1 = k := rfl
@[simp] theorem State.k2_loadSingle (k : Block) : (s.loadSingle k).k2 = s.k2 := rfl
@[simp] theorem State.k3_loadSingle (k : Block) : (s.loadSingle k).k3 = s.k3 := rfl
@[simp] theorem State.baseiv_loadSingle (k : Block) : (s.loadSingle k).baseiv = s.baseiv := rfl
@[simp] theorem State.enciv_loadSingle (k : Block) : (s.loadSingle k).enciv = s.enciv := rfl
@[simp] theorem State.deciv_loadSingle (k : Block) : (s.loadSingle k).deciv = s.deciv := rfl
@[simp] theorem State.senc1_loadSingle (k : Block) : (s.loadSingle k).senc1 = s.senc1 := rfl
@[simp] theorem State.senc2_loadSingle (k : Block) : (s.loadSingle k).senc2 = s.senc2 := rfl
@[simp] theorem State.senc3_loadSingle (k : Block) : (s.loadSingle k).senc3 = s.senc3 := rfl
@[simp] theorem State.sdec1_loadSingle (k : Block) : (s.loadSingle k).sdec1 = s.sdec1 := rfl
@[simp] theorem State.sdec2_loadSingle (k : Block) : (s.loadSingle k).sdec2 = s.sdec2 := rfl
@[simp] theorem State.sdec3_loadSingle (k : Block) : (s.loadSingle k).sdec3 = s.sdec3 := rfl
@[simp] theorem State.cmdidx_loadSingle (k : Block) : (s.loadSingle k).cmdidx = s.cmdidx := rfl
@[simp] theorem State.pending_loadSingle (k : Block) : (s.loadSingle k).pending = s.pending := rfl
@[simp] theorem State.response_loadSingle (k : Block) : (s.loadSingle k).response = s.response := rfl

/-! ## `loadTriple` -/

@[simp] theorem State.mode_loadTriple (a b c : Block) : (s.loadTriple a b c).mode = s.mode := rfl
@[simp] theorem State.paden_loadTriple (a b c : Block) : (s.loadTriple a b c).paden = s.paden := rfl
@[simp] theorem State.conten_loadTriple (a b c : Block) : (s.loadTriple a b c).conten = s.conten := rfl
@[simp] theorem State.keyclass_loadTriple (a b c : Block) : (s.loadTriple a b c).keyclass = .triple := rfl
@[simp] theorem State.k1_loadTriple (a b c : Block) : (s.loadTriple a b c).k1 = a := rfl
@[simp] theorem State.k2_loadTriple (a b c : Block) : (s.loadTriple a b c).k2 = b := rfl
@[simp] theorem State.k3_loadTriple (a b c : Block) : (s.loadTriple a b c).k3 = c := rfl
@[simp] theorem State.baseiv_loadTriple (a b c : Block) : (s.loadTriple a b c).baseiv = s.baseiv := rfl
@[simp] theorem State.enciv_loadTriple (a b c : Block) : (s.loadTriple a b c).enciv = s.enciv := rfl
@[simp] theorem State.deciv_loadTriple (a b c : Block) : (s.loadTriple a b c).deciv = s.deciv := rfl
@[simp] theorem State.senc1_loadTriple (a b c : Block) : (s.loadTriple a b c).senc1 = s.senc1 := rfl
@[simp] theorem State.senc2_loadTriple (a b c : Block) : (s.loadTriple a b c).senc2 = s.senc2 := rfl
@[simp] theorem State.senc3_loadTriple (a b c : Block) : (s.loadTriple a b c).senc3 = s.senc3 := rfl
@[simp] theorem State.sdec1_loadTriple (a b c : Block) : (s.loadTriple a b c).sdec1 = s.sdec1 := rfl
@[simp] theorem State.sdec2_loadTriple (a b c : Block) : (s.loadTriple a b c).sdec2 = s.sdec2 := rfl
@[simp] theorem State.sdec3_loadTriple (a b c : Block) : (s.loadTriple a b c).sdec3 = s.sdec3 := rfl
@[simp] theorem State.cmdidx_loadTriple (a b c : Block) : (s.loadTriple a b c).cmdidx = s.cmdidx := rfl
@[simp] theorem State.pending_loadTriple (a b c : Block) : (s.loadTriple a b c).pending = s.pending := rfl
@[simp] theorem State.response_loadTriple (a b c : Block) : (s.loadTriple a b c).response = s.response := rfl

/-! ## `loadIv` -/

@[simp] theorem State.mode_loadIv (v : Block) : (s.loadIv v).mode = s.mode := rfl
@[simp] theorem State.paden_loadIv (v : Block) : (s.loadIv v).paden = s.paden := rfl
@[simp] theorem State.conten_loadIv (v : Block) : (s.loadIv v).conten = s.conten := rfl
@[simp] theorem State.keyclass_loadIv (v : Block) : (s.loadIv v).keyclass = s.keyclass := rfl
@[simp] theorem State.k1_loadIv (v : Block) : (s.loadIv v).k1 = s.k1 := rfl
@[simp] theorem State.k2_loadIv (v : Block) : (s.loadIv v).k2 = s.k2 := rfl
@[simp] theorem State.k3_loadIv (v : Block) : (s.loadIv v).k3 = s.k3 := rfl
@[simp] theorem State.baseiv_loadIv (v : Block) : (s.loadIv v).baseiv = v := rfl
@[simp] theorem State.enciv_loadIv (v : Block) : (s.loadIv v).enciv = v := rfl
@[simp] theorem State.deciv_loadIv (v : Block) : (s.loadIv v).deciv = v := rfl
@[simp] theorem State.senc1_loadIv (v : Block) : (s.loadIv v).senc1 = s.senc1 := rfl
@[simp] theorem State.senc2_loadIv (v : Block) : (s.loadIv v).senc2 = s.senc2 := rfl
@[simp] theorem State.senc3_loadIv (v : Block) : (s.loadIv v).senc3 = s.senc3 := rfl
@[simp] theorem State.sdec1_loadIv (v : Block) : (s.loadIv v).sdec1 = s.sdec1 := rfl
@[simp] theorem State.sdec2_loadIv (v : Block) : (s.loadIv v).sdec2 = s.sdec2 := rfl
@[simp] theorem State.sdec3_loadIv (v : Block) : (s.loadIv v).sdec3 = s.sdec3 := rfl
@[simp] theorem State.cmdidx_loadIv (v : Block) : (s.loadIv v).cmdidx = s.cmdidx := rfl
@[simp] theorem State.pending_loadIv (v : Block) : (s.loadIv v).pending = s.pending := rfl
@[simp] theorem State.response_loadIv (v : Block) : (s.loadIv v).response = s.response := rfl

/-! ## `rewind` -/

@[simp] theorem State.mode_rewind : (s.rewind).mode = s.mode := rfl
@[simp] theorem State.paden_rewind : (s.rewind).paden = s.paden := rfl
@[simp] theorem State.conten_rewind : (s.rewind).conten = s.conten := rfl
@[simp] theorem State.keyclass_rewind : (s.rewind).keyclass = s.keyclass := rfl
@[simp] theorem State.k1_rewind : (s.rewind).k1 = s.k1 := rfl
@[simp] theorem State.k2_rewind : (s.rewind).k2 = s.k2 := rfl
@[simp] theorem State.k3_rewind : (s.rewind).k3 = s.k3 := rfl
@[simp] theorem State.baseiv_rewind : (s.rewind).baseiv = s.baseiv := rfl
@[simp] theorem State.enciv_rewind : (s.rewind).enciv = s.baseiv := rfl
@[simp] theorem State.deciv_rewind : (s.rewind).deciv = s.baseiv := rfl
@[simp] theorem State.senc1_rewind : (s.rewind).senc1 = s.senc1 := rfl
@[simp] theorem State.senc2_rewind : (s.rewind).senc2 = s.senc2 := rfl
@[simp] theorem State.senc3_rewind : (s.rewind).senc3 = s.senc3 := rfl
@[simp] theorem State.sdec1_rewind : (s.rewind).sdec1 = s.sdec1 := rfl
@[simp] theorem State.sdec2_rewind : (s.rewind).sdec2 = s.sdec2 := rfl
@[simp] theorem State.sdec3_rewind : (s.rewind).sdec3 = s.sdec3 := rfl
@[simp] theorem State.cmdidx_rewind : (s.rewind).cmdidx = s.cmdidx := rfl
@[simp] theorem State.pending_rewind : (s.rewind).pending = s.pending := rfl
@[simp] theorem State.response_rewind : (s.rewind).response = s.response := rfl

/-! ## `construct` -/

@[simp] theorem State.mode_construct (m : Mode) : (s.construct m).mode = m := rfl
@[simp] theorem State.paden_construct (m : Mode) : (s.construct m).paden = true := rfl
@[simp] theorem State.conten_construct (m : Mode) : (s.construct m).conten = false := rfl
@[simp] theorem State.keyclass_construct (m : Mode) : (s.construct m).keyclass = .none := rfl
@[simp] theorem State.k1_construct (m : Mode) : (s.construct m).k1 = Block.zeros := rfl
@[simp] theorem State.k2_construct (m : Mode) : (s.construct m).k2 = Block.zeros := rfl
@[simp] theorem State.k3_construct (m : Mode) : (s.construct m).k3 = Block.zeros := rfl
@[simp] theorem State.baseiv_construct (m : Mode) : (s.construct m).baseiv = Block.zeros := rfl
@[simp] theorem State.enciv_construct (m : Mode) : (s.construct m).enciv = Block.zeros := rfl
@[simp] theorem State.deciv_construct (m : Mode) : (s.construct m).deciv = Block.zeros := rfl
@[simp] theorem State.senc1_construct (m : Mode) : (s.construct m).senc1 = Block.zeros := rfl
@[simp] theorem State.senc2_construct (m : Mode) : (s.construct m).senc2 = Block.zeros := rfl
@[simp] theorem State.senc3_construct (m : Mode) : (s.construct m).senc3 = Block.zeros := rfl
@[simp] theorem State.sdec1_construct (m : Mode) : (s.construct m).sdec1 = Block.zeros := rfl
@[simp] theorem State.sdec2_construct (m : Mode) : (s.construct m).sdec2 = Block.zeros := rfl
@[simp] theorem State.sdec3_construct (m : Mode) : (s.construct m).sdec3 = Block.zeros := rfl
@[simp] theorem State.cmdidx_construct (m : Mode) : (s.construct m).cmdidx = s.cmdidx := rfl
@[simp] theorem State.pending_construct (m : Mode) : (s.construct m).pending = s.pending := rfl
@[simp] theorem State.response_construct (m : Mode) : (s.construct m).response = s.response := rfl

/-! ## `present` -/

@[simp] theorem State.mode_present (c : Command) : (s.present c).mode = s.mode := rfl
@[simp] theorem State.paden_present (c : Command) : (s.present c).paden = s.paden := rfl
@[simp] theorem State.conten_present (c : Command) : (s.present c).conten = s.conten := rfl
@[simp] theorem State.keyclass_present (c : Command) : (s.present c).keyclass = s.keyclass := rfl
@[simp] theorem State.k1_present (c : Command) : (s.present c).k1 = s.k1 := rfl
@[simp] theorem State.k2_present (c : Command) : (s.present c).k2 = s.k2 := rfl
@[simp] theorem State.k3_present (c : Command) : (s.present c).k3 = s.k3 := rfl
@[simp] theorem State.baseiv_present (c : Command) : (s.present c).baseiv = s.baseiv := rfl
@[simp] theorem State.enciv_present (c : Command) : (s.present c).enciv = s.enciv := rfl
@[simp] theorem State.deciv_present (c : Command) : (s.present c).deciv = s.deciv := rfl
@[simp] theorem State.senc1_present (c : Command) : (s.present c).senc1 = s.senc1 := rfl
@[simp] theorem State.senc2_present (c : Command) : (s.present c).senc2 = s.senc2 := rfl
@[simp] theorem State.senc3_present (c : Command) : (s.present c).senc3 = s.senc3 := rfl
@[simp] theorem State.sdec1_present (c : Command) : (s.present c).sdec1 = s.sdec1 := rfl
@[simp] theorem State.sdec2_present (c : Command) : (s.present c).sdec2 = s.sdec2 := rfl
@[simp] theorem State.sdec3_present (c : Command) : (s.present c).sdec3 = s.sdec3 := rfl
@[simp] theorem State.cmdidx_present (c : Command) : (s.present c).cmdidx = s.cmdidx := rfl
@[simp] theorem State.pending_present (c : Command) : (s.present c).pending = .command c :: s.pending := rfl
@[simp] theorem State.response_present (c : Command) : (s.present c).response = s.response := rfl

/-! ## `setPending` -/

@[simp] theorem State.mode_setPending (es : List HostEvent) : (s.setPending es).mode = s.mode := rfl
@[simp] theorem State.paden_setPending (es : List HostEvent) : (s.setPending es).paden = s.paden := rfl
@[simp] theorem State.conten_setPending (es : List HostEvent) : (s.setPending es).conten = s.conten := rfl
@[simp] theorem State.keyclass_setPending (es : List HostEvent) : (s.setPending es).keyclass = s.keyclass := rfl
@[simp] theorem State.k1_setPending (es : List HostEvent) : (s.setPending es).k1 = s.k1 := rfl
@[simp] theorem State.k2_setPending (es : List HostEvent) : (s.setPending es).k2 = s.k2 := rfl
@[simp] theorem State.k3_setPending (es : List HostEvent) : (s.setPending es).k3 = s.k3 := rfl
@[simp] theorem State.baseiv_setPending (es : List HostEvent) : (s.setPending es).baseiv = s.baseiv := rfl
@[simp] theorem State.enciv_setPending (es : List HostEvent) : (s.setPending es).enciv = s.enciv := rfl
@[simp] theorem State.deciv_setPending (es : List HostEvent) : (s.setPending es).deciv = s.deciv := rfl
@[simp] theorem State.senc1_setPending (es : List HostEvent) : (s.setPending es).senc1 = s.senc1 := rfl
@[simp] theorem State.senc2_setPending (es : List HostEvent) : (s.setPending es).senc2 = s.senc2 := rfl
@[simp] theorem State.senc3_setPending (es : List HostEvent) : (s.setPending es).senc3 = s.senc3 := rfl
@[simp] theorem State.sdec1_setPending (es : List HostEvent) : (s.setPending es).sdec1 = s.sdec1 := rfl
@[simp] theorem State.sdec2_setPending (es : List HostEvent) : (s.setPending es).sdec2 = s.sdec2 := rfl
@[simp] theorem State.sdec3_setPending (es : List HostEvent) : (s.setPending es).sdec3 = s.sdec3 := rfl
@[simp] theorem State.cmdidx_setPending (es : List HostEvent) : (s.setPending es).cmdidx = s.cmdidx := rfl
@[simp] theorem State.pending_setPending (es : List HostEvent) : (s.setPending es).pending = es := rfl
@[simp] theorem State.response_setPending (es : List HostEvent) : (s.setPending es).response = s.response := rfl

/-! ## `resetEvent` -/

@[simp] theorem State.mode_resetEvent : (s.resetEvent).mode = .cbc := rfl
@[simp] theorem State.paden_resetEvent : (s.resetEvent).paden = true := rfl
@[simp] theorem State.conten_resetEvent : (s.resetEvent).conten = false := rfl
@[simp] theorem State.keyclass_resetEvent : (s.resetEvent).keyclass = .none := rfl
@[simp] theorem State.k1_resetEvent : (s.resetEvent).k1 = Block.zeros := rfl
@[simp] theorem State.k2_resetEvent : (s.resetEvent).k2 = Block.zeros := rfl
@[simp] theorem State.k3_resetEvent : (s.resetEvent).k3 = Block.zeros := rfl
@[simp] theorem State.baseiv_resetEvent : (s.resetEvent).baseiv = Block.zeros := rfl
@[simp] theorem State.enciv_resetEvent : (s.resetEvent).enciv = Block.zeros := rfl
@[simp] theorem State.deciv_resetEvent : (s.resetEvent).deciv = Block.zeros := rfl
@[simp] theorem State.senc1_resetEvent : (s.resetEvent).senc1 = Block.zeros := rfl
@[simp] theorem State.senc2_resetEvent : (s.resetEvent).senc2 = Block.zeros := rfl
@[simp] theorem State.senc3_resetEvent : (s.resetEvent).senc3 = Block.zeros := rfl
@[simp] theorem State.sdec1_resetEvent : (s.resetEvent).sdec1 = Block.zeros := rfl
@[simp] theorem State.sdec2_resetEvent : (s.resetEvent).sdec2 = Block.zeros := rfl
@[simp] theorem State.sdec3_resetEvent : (s.resetEvent).sdec3 = Block.zeros := rfl
@[simp] theorem State.cmdidx_resetEvent : (s.resetEvent).cmdidx = 0 := rfl
@[simp] theorem State.pending_resetEvent : (s.resetEvent).pending = s.pending := rfl
@[simp] theorem State.response_resetEvent : (s.resetEvent).response = none := rfl

/-! ## `finish` -/

@[simp] theorem State.mode_finish (out : Bytes) : (s.finish out).mode = s.mode := rfl
@[simp] theorem State.paden_finish (out : Bytes) : (s.finish out).paden = s.paden := rfl
@[simp] theorem State.conten_finish (out : Bytes) : (s.finish out).conten = s.conten := rfl
@[simp] theorem State.keyclass_finish (out : Bytes) : (s.finish out).keyclass = s.keyclass := rfl
@[simp] theorem State.k1_finish (out : Bytes) : (s.finish out).k1 = s.k1 := rfl
@[simp] theorem State.k2_finish (out : Bytes) : (s.finish out).k2 = s.k2 := rfl
@[simp] theorem State.k3_finish (out : Bytes) : (s.finish out).k3 = s.k3 := rfl
@[simp] theorem State.baseiv_finish (out : Bytes) : (s.finish out).baseiv = s.baseiv := rfl
@[simp] theorem State.enciv_finish (out : Bytes) : (s.finish out).enciv = s.enciv := rfl
@[simp] theorem State.deciv_finish (out : Bytes) : (s.finish out).deciv = s.deciv := rfl
@[simp] theorem State.senc1_finish (out : Bytes) : (s.finish out).senc1 = s.senc1 := rfl
@[simp] theorem State.senc2_finish (out : Bytes) : (s.finish out).senc2 = s.senc2 := rfl
@[simp] theorem State.senc3_finish (out : Bytes) : (s.finish out).senc3 = s.senc3 := rfl
@[simp] theorem State.sdec1_finish (out : Bytes) : (s.finish out).sdec1 = s.sdec1 := rfl
@[simp] theorem State.sdec2_finish (out : Bytes) : (s.finish out).sdec2 = s.sdec2 := rfl
@[simp] theorem State.sdec3_finish (out : Bytes) : (s.finish out).sdec3 = s.sdec3 := rfl
@[simp] theorem State.cmdidx_finish (out : Bytes) : (s.finish out).cmdidx = s.cmdidx + 1 := rfl
@[simp] theorem State.pending_finish (out : Bytes) : (s.finish out).pending = s.pending := rfl
@[simp] theorem State.response_finish (out : Bytes) : (s.finish out).response = some ⟨statusOk, out⟩ := rfl

/-! ## `raiseError` -/

@[simp] theorem State.mode_raiseError (e : CmdError) : (s.raiseError e).mode = s.mode := rfl
@[simp] theorem State.paden_raiseError (e : CmdError) : (s.raiseError e).paden = s.paden := rfl
@[simp] theorem State.conten_raiseError (e : CmdError) : (s.raiseError e).conten = s.conten := rfl
@[simp] theorem State.keyclass_raiseError (e : CmdError) : (s.raiseError e).keyclass = s.keyclass := rfl
@[simp] theorem State.k1_raiseError (e : CmdError) : (s.raiseError e).k1 = s.k1 := rfl
@[simp] theorem State.k2_raiseError (e : CmdError) : (s.raiseError e).k2 = s.k2 := rfl
@[simp] theorem State.k3_raiseError (e : CmdError) : (s.raiseError e).k3 = s.k3 := rfl
@[simp] theorem State.baseiv_raiseError (e : CmdError) : (s.raiseError e).baseiv = s.baseiv := rfl
@[simp] theorem State.enciv_raiseError (e : CmdError) : (s.raiseError e).enciv = s.enciv := rfl
@[simp] theorem State.deciv_raiseError (e : CmdError) : (s.raiseError e).deciv = s.deciv := rfl
@[simp] theorem State.senc1_raiseError (e : CmdError) : (s.raiseError e).senc1 = s.senc1 := rfl
@[simp] theorem State.senc2_raiseError (e : CmdError) : (s.raiseError e).senc2 = s.senc2 := rfl
@[simp] theorem State.senc3_raiseError (e : CmdError) : (s.raiseError e).senc3 = s.senc3 := rfl
@[simp] theorem State.sdec1_raiseError (e : CmdError) : (s.raiseError e).sdec1 = s.sdec1 := rfl
@[simp] theorem State.sdec2_raiseError (e : CmdError) : (s.raiseError e).sdec2 = s.sdec2 := rfl
@[simp] theorem State.sdec3_raiseError (e : CmdError) : (s.raiseError e).sdec3 = s.sdec3 := rfl
@[simp] theorem State.cmdidx_raiseError (e : CmdError) : (s.raiseError e).cmdidx = s.cmdidx + 1 := rfl
@[simp] theorem State.pending_raiseError (e : CmdError) : (s.raiseError e).pending = s.pending := rfl
@[simp] theorem State.response_raiseError (e : CmdError) : (s.raiseError e).response = some ⟨e.code, []⟩ := rfl

/-! ## `setSenc` -/

@[simp] theorem State.mode_setSenc (i : Stage) (v : Block) : (s.setSenc i v).mode = s.mode := by cases i <;> rfl
@[simp] theorem State.paden_setSenc (i : Stage) (v : Block) : (s.setSenc i v).paden = s.paden := by cases i <;> rfl
@[simp] theorem State.conten_setSenc (i : Stage) (v : Block) : (s.setSenc i v).conten = s.conten := by cases i <;> rfl
@[simp] theorem State.keyclass_setSenc (i : Stage) (v : Block) : (s.setSenc i v).keyclass = s.keyclass := by cases i <;> rfl
@[simp] theorem State.k1_setSenc (i : Stage) (v : Block) : (s.setSenc i v).k1 = s.k1 := by cases i <;> rfl
@[simp] theorem State.k2_setSenc (i : Stage) (v : Block) : (s.setSenc i v).k2 = s.k2 := by cases i <;> rfl
@[simp] theorem State.k3_setSenc (i : Stage) (v : Block) : (s.setSenc i v).k3 = s.k3 := by cases i <;> rfl
@[simp] theorem State.baseiv_setSenc (i : Stage) (v : Block) : (s.setSenc i v).baseiv = s.baseiv := by cases i <;> rfl
@[simp] theorem State.enciv_setSenc (i : Stage) (v : Block) : (s.setSenc i v).enciv = s.enciv := by cases i <;> rfl
@[simp] theorem State.deciv_setSenc (i : Stage) (v : Block) : (s.setSenc i v).deciv = s.deciv := by cases i <;> rfl
@[simp] theorem State.senc1_setSenc (i : Stage) (v : Block) : (s.setSenc i v).senc1 = if i = .one then v else s.senc1 := by
  cases i <;> rfl
@[simp] theorem State.senc2_setSenc (i : Stage) (v : Block) : (s.setSenc i v).senc2 = if i = .two then v else s.senc2 := by
  cases i <;> rfl
@[simp] theorem State.senc3_setSenc (i : Stage) (v : Block) : (s.setSenc i v).senc3 = if i = .three then v else s.senc3 := by
  cases i <;> rfl
@[simp] theorem State.sdec1_setSenc (i : Stage) (v : Block) : (s.setSenc i v).sdec1 = s.sdec1 := by cases i <;> rfl
@[simp] theorem State.sdec2_setSenc (i : Stage) (v : Block) : (s.setSenc i v).sdec2 = s.sdec2 := by cases i <;> rfl
@[simp] theorem State.sdec3_setSenc (i : Stage) (v : Block) : (s.setSenc i v).sdec3 = s.sdec3 := by cases i <;> rfl
@[simp] theorem State.cmdidx_setSenc (i : Stage) (v : Block) : (s.setSenc i v).cmdidx = s.cmdidx := by cases i <;> rfl
@[simp] theorem State.pending_setSenc (i : Stage) (v : Block) : (s.setSenc i v).pending = s.pending := by cases i <;> rfl
@[simp] theorem State.response_setSenc (i : Stage) (v : Block) : (s.setSenc i v).response = s.response := by cases i <;> rfl

/-! ## `setSdec` -/

@[simp] theorem State.mode_setSdec (i : Stage) (v : Block) : (s.setSdec i v).mode = s.mode := by cases i <;> rfl
@[simp] theorem State.paden_setSdec (i : Stage) (v : Block) : (s.setSdec i v).paden = s.paden := by cases i <;> rfl
@[simp] theorem State.conten_setSdec (i : Stage) (v : Block) : (s.setSdec i v).conten = s.conten := by cases i <;> rfl
@[simp] theorem State.keyclass_setSdec (i : Stage) (v : Block) : (s.setSdec i v).keyclass = s.keyclass := by cases i <;> rfl
@[simp] theorem State.k1_setSdec (i : Stage) (v : Block) : (s.setSdec i v).k1 = s.k1 := by cases i <;> rfl
@[simp] theorem State.k2_setSdec (i : Stage) (v : Block) : (s.setSdec i v).k2 = s.k2 := by cases i <;> rfl
@[simp] theorem State.k3_setSdec (i : Stage) (v : Block) : (s.setSdec i v).k3 = s.k3 := by cases i <;> rfl
@[simp] theorem State.baseiv_setSdec (i : Stage) (v : Block) : (s.setSdec i v).baseiv = s.baseiv := by cases i <;> rfl
@[simp] theorem State.enciv_setSdec (i : Stage) (v : Block) : (s.setSdec i v).enciv = s.enciv := by cases i <;> rfl
@[simp] theorem State.deciv_setSdec (i : Stage) (v : Block) : (s.setSdec i v).deciv = s.deciv := by cases i <;> rfl
@[simp] theorem State.senc1_setSdec (i : Stage) (v : Block) : (s.setSdec i v).senc1 = s.senc1 := by cases i <;> rfl
@[simp] theorem State.senc2_setSdec (i : Stage) (v : Block) : (s.setSdec i v).senc2 = s.senc2 := by cases i <;> rfl
@[simp] theorem State.senc3_setSdec (i : Stage) (v : Block) : (s.setSdec i v).senc3 = s.senc3 := by cases i <;> rfl
@[simp] theorem State.sdec1_setSdec (i : Stage) (v : Block) : (s.setSdec i v).sdec1 = if i = .one then v else s.sdec1 := by
  cases i <;> rfl
@[simp] theorem State.sdec2_setSdec (i : Stage) (v : Block) : (s.setSdec i v).sdec2 = if i = .two then v else s.sdec2 := by
  cases i <;> rfl
@[simp] theorem State.sdec3_setSdec (i : Stage) (v : Block) : (s.setSdec i v).sdec3 = if i = .three then v else s.sdec3 := by
  cases i <;> rfl
@[simp] theorem State.cmdidx_setSdec (i : Stage) (v : Block) : (s.setSdec i v).cmdidx = s.cmdidx := by cases i <;> rfl
@[simp] theorem State.pending_setSdec (i : Stage) (v : Block) : (s.setSdec i v).pending = s.pending := by cases i <;> rfl
@[simp] theorem State.response_setSdec (i : Stage) (v : Block) : (s.setSdec i v).response = s.response := by cases i <;> rfl

/-! ## The register files by index -/

@[simp] theorem State.key_one : s.key .one = s.k1 := rfl
@[simp] theorem State.key_two : s.key .two = s.k2 := rfl
@[simp] theorem State.key_three : s.key .three = s.k3 := rfl
@[simp] theorem State.senc_one : s.senc .one = s.senc1 := rfl
@[simp] theorem State.senc_two : s.senc .two = s.senc2 := rfl
@[simp] theorem State.senc_three : s.senc .three = s.senc3 := rfl
@[simp] theorem State.sdec_one : s.sdec .one = s.sdec1 := rfl
@[simp] theorem State.sdec_two : s.sdec .two = s.sdec2 := rfl
@[simp] theorem State.sdec_three : s.sdec .three = s.sdec3 := rfl
@[simp] theorem State.key_setSenc (i j : Stage) (v : Block) : (s.setSenc i v).key j = s.key j := by cases i <;> cases j <;> rfl
@[simp] theorem State.sdec_setSenc (i j : Stage) (v : Block) : (s.setSenc i v).sdec j = s.sdec j := by
  cases i <;> cases j <;> rfl
theorem State.senc_setSenc (i j : Stage) (v : Block) : (s.setSenc i v).senc j = if i = j then v else s.senc j := by
  cases i <;> cases j <;> rfl
@[simp] theorem State.key_setSdec (i j : Stage) (v : Block) : (s.setSdec i v).key j = s.key j := by cases i <;> cases j <;> rfl
@[simp] theorem State.senc_setSdec (i j : Stage) (v : Block) : (s.setSdec i v).senc j = s.senc j := by
  cases i <;> cases j <;> rfl
theorem State.sdec_setSdec (i j : Stage) (v : Block) : (s.setSdec i v).sdec j = if i = j then v else s.sdec j := by
  cases i <;> cases j <;> rfl

end Sys2Proof.Machine
end

