-- ==== Sys2Proof/Laws/Commands.lean ====
section
/-! SUPPORT. How a command ends (`complete`), what each meaning is as a completion, the paths of `ENCRYPT` and `DECRYPT`, and all
that a step can do. -/

namespace Sys2Proof.Machine

/-! ## Completion -/

@[simp] theorem complete_ok (s t : State) (out : Bytes) : complete s (.ok (t, out)) = .next (t.finish out) := rfl

@[simp] theorem complete_error (s : State) (e : CmdError) : complete s (.error e) = .next (s.raiseError e) := rfl

/-- All that the end of a command can be (R160). -/
theorem complete_cases (s : State) (r : Result) :
    (∃ t out, r = .ok (t, out) ∧ complete s r = .next (t.finish out)) ∨
    (∃ e, r = .error e ∧ complete s r = .next (s.raiseError e)) := by
  match r with
  | .ok (t, out) => exact .inl ⟨t, out, rfl, rfl⟩
  | .error e => exact .inr ⟨e, rfl, rfl⟩

/-- The rule of a command: what it computes before the command ends. -/
def bodyOf (i : Instr) (s : State) : Result :=
  match i with
  | .config arg => .ok (s.construct (modeOfArg arg), [])
  | .setkey raw => .ok (loadKey (deriveSubKeys raw) s, [])
  | .setiv iv => setivBody iv s
  | .enpad => .ok (s.setPaden true, [])
  | .dispad => .ok (s.setPaden false, [])
  | .encont => .ok (s.setConten true, [])
  | .discont => .ok ((s.setConten false).rewind, [])
  | .encrypt data => encryptBody Config.params data s
  | .decrypt data => decryptBody Config.params data s
  | .bkhint _ => .ok (s, [])

/-- Every meaning is the completion of its rule (R160). -/
theorem exec_eq_complete (i : Instr) (s : State) : exec i s = complete s (bodyOf i s) := by cases i <;> rfl

theorem setivBody_of_eight {iv : Bytes} (h : iv.length = 8) (s : State) :
    setivBody iv s = .ok (s.loadIv (blockOf iv), []) := by simp [setivBody, h]

theorem setivBody_of_other {iv : Bytes} (h : iv.length ≠ 8) (s : State) : setivBody iv s = .error .ivlen := by
  simp [setivBody, h]

/-! ## The paths of the data commands (R130) -/

theorem legacyActive_iff (s : State) : legacyActive s = true ↔ s.mode = .legacy ∧ s.keyclass = .triple := by
  simp [legacyActive]

theorem cbcMode_iff (s : State) :
    cbcMode s = true ↔ s.mode = .cbc ∨ (s.mode = .legacy ∧ s.keyclass = .single) := by simp [cbcMode]

/-- With a key, exactly one of the three paths is taken. -/
theorem paths (s : State) (hk : s.keyclass ≠ .none) :
    (legacyActive s = true) ∨ (legacyActive s = false ∧ s.mode = .ecb) ∨
    (legacyActive s = false ∧ s.mode ≠ .ecb ∧ cbcMode s = true) := by
  cases hm : s.mode <;> cases hc : s.keyclass <;> simp_all [legacyActive, cbcMode]

theorem cbcMode_paths {s : State} (h : cbcMode s = true) : legacyActive s = false ∧ s.mode ≠ .ecb := by
  rcases (cbcMode_iff s).mp h with h | ⟨h, h'⟩ <;> simp_all [legacyActive]

theorem ecb_paths {s : State} (h : s.mode = .ecb) : legacyActive s = false := by simp [legacyActive, h]

theorem paddingApplies_of_not_legacy {s : State} (h : legacyActive s = false) : paddingApplies s = s.paden := by
  simp [paddingApplies, h]

theorem encryptBody_nokey (P : Params) (d : Bytes) {s : State} (h : s.keyclass = .none) :
    encryptBody P d s = .error .nokey := by simp [encryptBody, h]

theorem encryptBody_legacy (P : Params) (d : Bytes) {s : State} (h : legacyActive s = true) :
    encryptBody P d s = .ok (legacyEncrypt P d s) := by
  have := ((legacyActive_iff s).mp h).2
  simp [encryptBody, h, this]

theorem encryptBody_ecb (P : Params) (d : Bytes) {s : State} (hk : s.keyclass ≠ .none) (hm : s.mode = .ecb) :
    encryptBody P d s = .ok (s, ofBlocks (ecbEncrypt P s (encryptInput s d))) := by
  simp [encryptBody, hk, hm, ecb_paths hm]

theorem encryptBody_cbc (P : Params) (d : Bytes) {s : State} (hk : s.keyclass ≠ .none) (hl : legacyActive s = false)
    (hm : s.mode ≠ .ecb) : encryptBody P d s =
      .ok (storeEnciv s (cbcEncrypt P s (encryptInput s d)).2, ofBlocks (cbcEncrypt P s (encryptInput s d)).1) := by
  simp [encryptBody, hk, hm, hl]

theorem decryptBody_nokey (P : Params) (d : Bytes) {s : State} (h : s.keyclass = .none) :
    decryptBody P d s = .error .nokey := by simp [decryptBody, h]

theorem decryptBody_legacy (P : Params) (d : Bytes) {s : State} (h : legacyActive s = true) :
    decryptBody P d s = .ok (legacyDecrypt P d s) := by
  have := ((legacyActive_iff s).mp h).2
  simp [decryptBody, h, this]

theorem decryptBody_unpadded (P : Params) (d : Bytes) {s : State} (hk : s.keyclass ≠ .none) (hl : legacyActive s = false)
    (hp : s.paden = false) : decryptBody P d s = .ok (decryptBuffer P d s) := by
  simp [decryptBody, hk, hl, hp]

theorem decryptBody_padded (P : Params) (d : Bytes) {s : State} (hk : s.keyclass ≠ .none) (hl : legacyActive s = false)
    (hp : s.paden = true) : decryptBody P d s =
      (unpad P.padPolicy (decryptBuffer P d s).2).map (fun out => ((decryptBuffer P d s).1, out)) := by
  simp only [decryptBody, hk, hl, hp]
  cases unpad P.padPolicy (decryptBuffer P d s).2 <;> rfl

theorem decryptBuffer_ecb (P : Params) (d : Bytes) {s : State} (hm : s.mode = .ecb) :
    decryptBuffer P d s = (s, ofBlocks (ecbDecrypt P s (decryptInput d))) := by simp [decryptBuffer, hm]

theorem decryptBuffer_cbc (P : Params) (d : Bytes) {s : State} (hm : s.mode ≠ .ecb) :
    decryptBuffer P d s =
      (storeDeciv s (cbcDecrypt P s (decryptInput d)).2, ofBlocks (cbcDecrypt P s (decryptInput d)).1) := by
  simp [decryptBuffer, hm]

/-! ## All that the data commands can do to the registers -/

/-- The end of an `ENCRYPT` in CBC (R125). -/
theorem storeEnciv_finish (s : State) (v : Block) (out : Bytes) : (storeEnciv s v).finish out =
    { s with enciv := if s.conten then v else s.enciv, cmdidx := s.cmdidx + 1, response := some ⟨statusOk, out⟩ } := by
  unfold storeEnciv; split <;> rfl

/-- The end of a `DECRYPT` in CBC (R125). -/
theorem storeDeciv_finish (s : State) (v : Block) (out : Bytes) : (storeDeciv s v).finish out =
    { s with deciv := if s.conten then v else s.deciv, cmdidx := s.cmdidx + 1, response := some ⟨statusOk, out⟩ } := by
  unfold storeDeciv; split <;> rfl

/-- The only register a `DECRYPT` outside the cascade can write is `DECIV`, and only in CBC with `CONTEN = 1` (R136). -/
theorem decryptBuffer_registers (P : Params) (d : Bytes) (s : State) : ∃ v,
    (decryptBuffer P d s).1 = { s with deciv := v } ∧ (¬(s.mode ≠ .ecb ∧ s.conten = true) → v = s.deciv) := by
  by_cases h : s.mode = .ecb
  · rw [decryptBuffer_ecb _ _ h]; exact ⟨s.deciv, rfl, fun _ => rfl⟩
  · rw [decryptBuffer_cbc _ _ h]
    simp only [storeDeciv]
    split
    · rename_i hc; exact ⟨_, rfl, fun hn => absurd ⟨h, hc⟩ hn⟩
    · exact ⟨s.deciv, rfl, fun _ => rfl⟩

/-- The decrypted buffer has the length of the zero-extended payload (R116). -/
theorem length_decryptBuffer (P : Params) (d : Bytes) (s : State) :
    (decryptBuffer P d s).2.length = (zext8 d).length := by
  have hz : 8 * ((zext8 d).length / 8) = (zext8 d).length := by rw [length_zext8]; omega
  by_cases h : s.mode = .ecb
  · rw [decryptBuffer_ecb _ _ h, length_ofBlocks]; simp [ecbDecrypt, decryptInput, length_toBlocks, hz]
  · rw [decryptBuffer_cbc _ _ h, length_ofBlocks]; simp [cbcDecrypt, decryptInput, length_toBlocks, hz]

/-- What an `ENCRYPT` that ends with `OK` can have written (R133, R135, R152). -/
theorem encryptBody_ok {P : Params} {d out : Bytes} {s t : State} (h : encryptBody P d s = .ok (t, out)) :
    s.keyclass ≠ .none ∧ ∃ e a b c, t = { s with enciv := e, senc1 := a, sdec2 := b, senc3 := c } ∧
      (¬(cbcMode s = true ∧ s.conten = true) → e = s.enciv) ∧
      (legacyActive s = false → a = s.senc1 ∧ b = s.sdec2 ∧ c = s.senc3) := by
  by_cases hk : s.keyclass = .none
  · rw [encryptBody_nokey _ _ hk] at h; cases h
  refine ⟨hk, ?_⟩
  rcases paths s hk with hl | ⟨-, hm⟩ | ⟨hl, hm, hc⟩
  · rw [encryptBody_legacy _ _ hl] at h; cases h
    exact ⟨_, _, _, _, rfl, fun _ => rfl, by simp [hl]⟩
  · rw [encryptBody_ecb _ _ hk hm] at h; cases h
    exact ⟨_, _, _, _, rfl, fun _ => rfl, fun _ => ⟨rfl, rfl, rfl⟩⟩
  · rw [encryptBody_cbc _ _ hk hl hm] at h; cases h
    simp only [storeEnciv]
    split
    · rename_i hn; exact ⟨_, _, _, _, rfl, fun hh => absurd ⟨hc, hn⟩ hh, fun _ => ⟨rfl, rfl, rfl⟩⟩
    · exact ⟨_, _, _, _, rfl, fun _ => rfl, fun _ => ⟨rfl, rfl, rfl⟩⟩

/-- Why an `ENCRYPT` can fail (R163). -/
theorem encryptBody_error {P : Params} {d : Bytes} {s : State} {e : CmdError} (h : encryptBody P d s = .error e) :
    e = .nokey ∧ s.keyclass = .none := by
  unfold encryptBody at h
  split at h
  · cases h; exact ⟨rfl, by assumption⟩
  · split at h
    · cases h
    · split at h <;> cases h

/-! ## Steps -/

/-- All that a step can do: stay idle, take the reset event, refuse an illegal command with `ERR_ILLEGAL`, or execute. -/
theorem step_cases (s : State) :
    (s.pending = [] ∧ step s = .next s) ∨
    (∃ a es, s.pending = .reset a :: es ∧ step s = .next (s.setPending es).resetEvent) ∨
    (∃ c es e, s.pending = .command c :: es ∧ decode c = .error e ∧
      step s = .next ((s.setPending es).raiseError .illegal)) ∨
    (∃ c es i, s.pending = .command c :: es ∧ decode c = .ok i ∧ step s = exec i (s.setPending es)) := by
  cases hp : s.pending with
  | nil => exact .inl ⟨rfl, by simp [step, serve, hp, idle]⟩
  | cons e es =>
    cases e with
    | reset a => exact .inr (.inl ⟨a, es, rfl, by simp [step, serve, hp, runEvent]⟩)
    | command c =>
      cases hd : decode c with
      | error e => exact .inr (.inr (.inl ⟨c, es, e, rfl, hd, by simp [step, serve, hp, runEvent, runCommand, hd]⟩))
      | ok i => exact .inr (.inr (.inr ⟨c, es, i, rfl, hd, by simp [step, serve, hp, runEvent, runCommand, hd]⟩))

/-- The registers a legacy-active `ENCRYPT` leaves, as an update of those it found (R152). -/
theorem legacyEncryptBlocks_eq (P : Params) (m : List Block) (s : State) :
    legacyEncryptBlocks P m s =
      (let t1 := cbcEncryptLoop (P.desE s.k1) s.senc1 m
       let t2 := cbcDecryptLoop (P.desD s.k2) s.sdec2 t1.1
       let t3 := cbcEncryptLoop (P.desE s.k3) s.senc3 t2.1
       ({ s with senc1 := t1.2, sdec2 := t2.2, senc3 := t3.2 }, t3.1)) := rfl

/-- The registers a legacy-active `DECRYPT` leaves, as an update of those it found (R153). -/
theorem legacyDecryptBlocks_eq (P : Params) (m : List Block) (s : State) :
    legacyDecryptBlocks P m s =
      (let u3 := cbcDecryptLoop (P.desD s.k3) s.sdec3 m
       let u2 := cbcEncryptLoop (P.desE s.k2) s.senc2 u3.1
       let u1 := cbcDecryptLoop (P.desD s.k1) s.sdec1 u2.1
       ({ s with sdec3 := u3.2, senc2 := u2.2, sdec1 := u1.2 }, u1.1)) := rfl

end Sys2Proof.Machine
end

