-- ==== Sys2Proof/Laws/Decode.lean ====
section
/-! SUPPORT. The fields of a command word as numbers, and the decoder row by row. -/

namespace Sys2Proof

/-! ## Fields -/

theorem opc_toNat (w : CmdWord) : (CmdWord.opc w).toNat = w.toNat % 256 := by
  simp [CmdWord.opc, BitVec.extractLsb'_toNat]

theorem arg_toNat (w : CmdWord) : (CmdWord.arg w).toNat = w.toNat / 256 % 256 := by
  simp [CmdWord.arg, BitVec.extractLsb'_toNat, Nat.shiftRight_eq_div_pow]

theorem rsv_toNat (w : CmdWord) : (CmdWord.rsv w).toNat = w.toNat / 65536 := by
  simp [CmdWord.rsv, BitVec.extractLsb'_toNat, Nat.shiftRight_eq_div_pow]; omega

theorem ofFields_toNat (rsv : BitVec 16) (arg opc : BitVec 8) :
    BitVec.toNat (CmdWord.ofFields rsv arg opc) = rsv.toNat * 65536 + arg.toNat * 256 + opc.toNat := by
  simp [CmdWord.ofFields]; omega

@[simp] theorem opc_ofFields (rsv : BitVec 16) (arg opc : BitVec 8) :
    CmdWord.opc (CmdWord.ofFields rsv arg opc) = opc := by
  apply BitVec.eq_of_toNat_eq; rw [opc_toNat, ofFields_toNat]; omega

@[simp] theorem arg_ofFields (rsv : BitVec 16) (arg opc : BitVec 8) :
    CmdWord.arg (CmdWord.ofFields rsv arg opc) = arg := by
  apply BitVec.eq_of_toNat_eq; rw [arg_toNat, ofFields_toNat]; omega

@[simp] theorem rsv_ofFields (rsv : BitVec 16) (arg opc : BitVec 8) :
    CmdWord.rsv (CmdWord.ofFields rsv arg opc) = rsv := by
  apply BitVec.eq_of_toNat_eq; rw [rsv_toNat, ofFields_toNat]; omega

/-- A word is made of its three fields and nothing else. -/
theorem ofFields_fields (w : CmdWord) :
    CmdWord.ofFields (CmdWord.rsv w) (CmdWord.arg w) (CmdWord.opc w) = w := by
  apply BitVec.eq_of_toNat_eq; rw [ofFields_toNat, rsv_toNat, arg_toNat, opc_toNat]; omega

/-! ## Rows -/

@[simp] theorem noPayload_nil (i : Instr) : noPayload i [] = .ok i := rfl

@[simp] theorem noPayload_cons (i : Instr) (b : Byte) (p : Bytes) : noPayload i (b :: p) = .error .strayPayload := rfl

theorem noPayload_ok {i j : Instr} {p : Bytes} (h : noPayload i p = .ok j) : p = [] ∧ i = j := by
  cases p with
  | nil => cases h; exact ⟨rfl, rfl⟩
  | cons b p => cases h

/-- An operation code is one of the ten assigned ones, or unassigned. -/
theorem opc_cases (opc : BitVec 8) :
    opc = 0x01 ∨ opc = 0x02 ∨ opc = 0x03 ∨ opc = 0x04 ∨ opc = 0x05 ∨ opc = 0x06 ∨ opc = 0x07 ∨ opc = 0x08 ∨
      opc = 0x09 ∨ opc = 0x0A ∨ (opc.toNat = 0 ∨ 11 ≤ opc.toNat) := by
  revert opc; decide

theorem instrOf_unassigned {arg opc : BitVec 8} (p : Bytes) (h : opc.toNat = 0 ∨ 11 ≤ opc.toNat) :
    instrOf arg opc p = none := by
  have hne : ∀ n : BitVec 8, 1 ≤ n.toNat → n.toNat ≤ 10 → opc ≠ n := by rintro n h1 h2 rfl; omega
  simp only [instrOf]
  repeat rw [if_neg (hne _ (by decide) (by decide))]

/-- All that the decoder can answer with an instruction (R81): the reserved field is 0, and the row's operands are those
of the command. -/
theorem decodeFields_ok {rsv : BitVec 16} {arg opc : BitVec 8} {p : Bytes} {i : Instr}
    (h : decodeFields rsv arg opc p = .ok i) : rsv = 0 ∧ i.opcode = opc ∧ i.argField = arg ∧ i.payload = p := by
  unfold decodeFields at h
  by_cases hr : rsv = 0
  · by_cases hs : opc ≠ 0x01 ∧ arg ≠ 0
    · rw [if_neg (by simpa using hr)] at h; split at h
      · cases h
      · rw [if_pos hs] at h; cases h
    · rw [if_neg (by simpa using hr)] at h
      rcases opc_cases opc with rfl | rfl | rfl | rfl | rfl | rfl | rfl | rfl | rfl | rfl | hu
      on_goal 11 => rw [instrOf_unassigned p hu] at h; cases h
      on_goal 1 =>
        simp [instrOf] at h
        obtain ⟨rfl, rfl⟩ := noPayload_ok h
        exact ⟨hr, rfl, rfl, rfl⟩
      all_goals
        have ha : arg = 0 := by simpa using hs
        subst ha
        simp [instrOf] at h
        first
          | (obtain ⟨rfl, rfl⟩ := noPayload_ok h; exact ⟨hr, rfl, rfl, rfl⟩)
          | (subst h; exact ⟨hr, rfl, rfl, rfl⟩)
  · rw [if_pos (by simpa using hr)] at h; cases h

end Sys2Proof
end

