-- ==== Sys2Proof/Laws/PerInstr.lean ====
section
/-! SUPPORT. One statement for every instruction: the fields of its encoded command (R72 to R76), constructor by constructor. -/

namespace Sys2Proof.Laws.EncodedWord

/-- What the encoding tables say of the command that encodes `i`: reserved bits zero, its operation code assigned, an argument on
`CONFIG` alone, and a payload on format P alone. -/
def Statement (i : Instr) : Prop :=
  CmdWord.rsv (encode i).cmdw = 0 ∧ CmdWord.opc (encode i).cmdw = i.opcode ∧ CmdWord.arg (encode i).cmdw = i.argField ∧
  (encode i).payload = i.payload ∧ (i.opcode ≠ 0x01 → i.argField = 0) ∧
  (∃ r ∈ opcodeMap, r.mnemonic = i.mnemonic ∧ r.selects (encode i).cmdw = true ∧ r.allows i.payload = true)

theorem config (arg : Byte) : Statement (.config arg) := by
  refine ⟨rsv_ofFields _ _ _, opc_ofFields _ _ _, arg_ofFields _ _ _, rfl, fun h => absurd rfl h,
    ⟨"CONFIG", .a, 0x00000001, 0xFFFF00FF⟩, by simp [opcodeMap], rfl, ?_, rfl⟩
  revert arg; decide

theorem setkey (raw : Bytes) : Statement (.setkey raw) :=
  ⟨rsv_ofFields _ _ _, opc_ofFields _ _ _, arg_ofFields _ _ _, rfl, fun _ => rfl,
    ⟨"SETKEY", .p, 0x00000002, 0xFFFFFFFF⟩, by simp [opcodeMap], rfl,
    (by decide : (CmdWord.ofFields 0 0 0x02 &&& 0xFFFFFFFF == (0x00000002 : CmdWord)) = true), rfl⟩

theorem setiv (iv : Bytes) : Statement (.setiv iv) :=
  ⟨rsv_ofFields _ _ _, opc_ofFields _ _ _, arg_ofFields _ _ _, rfl, fun _ => rfl,
    ⟨"SETIV", .p, 0x00000003, 0xFFFFFFFF⟩, by simp [opcodeMap], rfl,
    (by decide : (CmdWord.ofFields 0 0 0x03 &&& 0xFFFFFFFF == (0x00000003 : CmdWord)) = true), rfl⟩

theorem enpad : Statement .enpad :=
  ⟨rsv_ofFields _ _ _, opc_ofFields _ _ _, arg_ofFields _ _ _, rfl, fun _ => rfl,
    ⟨"ENPAD", .n, 0x00000004, 0xFFFFFFFF⟩, by simp [opcodeMap], rfl, rfl, rfl⟩

theorem dispad : Statement .dispad :=
  ⟨rsv_ofFields _ _ _, opc_ofFields _ _ _, arg_ofFields _ _ _, rfl, fun _ => rfl,
    ⟨"DISPAD", .n, 0x00000005, 0xFFFFFFFF⟩, by simp [opcodeMap], rfl, rfl, rfl⟩

theorem encont : Statement .encont :=
  ⟨rsv_ofFields _ _ _, opc_ofFields _ _ _, arg_ofFields _ _ _, rfl, fun _ => rfl,
    ⟨"ENCONT", .n, 0x00000006, 0xFFFFFFFF⟩, by simp [opcodeMap], rfl, rfl, rfl⟩

theorem discont : Statement .discont :=
  ⟨rsv_ofFields _ _ _, opc_ofFields _ _ _, arg_ofFields _ _ _, rfl, fun _ => rfl,
    ⟨"DISCONT", .n, 0x00000007, 0xFFFFFFFF⟩, by simp [opcodeMap], rfl, rfl, rfl⟩

theorem encrypt (data : Bytes) : Statement (.encrypt data) :=
  ⟨rsv_ofFields _ _ _, opc_ofFields _ _ _, arg_ofFields _ _ _, rfl, fun _ => rfl,
    ⟨"ENCRYPT", .p, 0x00000008, 0xFFFFFFFF⟩, by simp [opcodeMap], rfl,
    (by decide : (CmdWord.ofFields 0 0 0x08 &&& 0xFFFFFFFF == (0x00000008 : CmdWord)) = true), rfl⟩

theorem decrypt (data : Bytes) : Statement (.decrypt data) :=
  ⟨rsv_ofFields _ _ _, opc_ofFields _ _ _, arg_ofFields _ _ _, rfl, fun _ => rfl,
    ⟨"DECRYPT", .p, 0x00000009, 0xFFFFFFFF⟩, by simp [opcodeMap], rfl,
    (by decide : (CmdWord.ofFields 0 0 0x09 &&& 0xFFFFFFFF == (0x00000009 : CmdWord)) = true), rfl⟩

theorem bkhint (hint : Bytes) : Statement (.bkhint hint) :=
  ⟨rsv_ofFields _ _ _, opc_ofFields _ _ _, arg_ofFields _ _ _, rfl, fun _ => rfl,
    ⟨"BKHINT", .p, 0x0000000A, 0xFFFFFFFF⟩, by simp [opcodeMap], rfl,
    (by decide : (CmdWord.ofFields 0 0 0x0A &&& 0xFFFFFFFF == (0x0000000A : CmdWord)) = true), rfl⟩

end Sys2Proof.Laws.EncodedWord
end

