-- ==== Sys2Proof/Tests/Slice0.lean ====
section
/-! SUPPORT. Small tests, one step each. Expected values come from spec/95_test_vectors.md (the vector's name stands in each
docstring), whose hand-computable primitive TOY is defined here; words are written out from the encoding tables of
spec/30_encoding.md. The last part shows, for every obligation with hypotheses, operands and states that meet them. -/

namespace Sys2Proof.Machine.Tests

/-! ## The test primitive and the test data of 95_test_vectors.md, section 0 -/

/-- `((b ^ k) + k) mod 256`. -/
def toyByte (k b : Byte) : Byte := (b ^^^ k) + k

/-- `((t - k) mod 256) ^ k`. -/
def toyByteBack (k t : Byte) : Byte := (t - k) ^^^ k

def toyE (k b : Block) : Block :=
  ⟨toyByte k.b1 b.b1, toyByte k.b2 b.b2, toyByte k.b3 b.b3, toyByte k.b4 b.b4,
   toyByte k.b5 b.b5, toyByte k.b6 b.b6, toyByte k.b7 b.b7, toyByte k.b0 b.b0⟩

def toyD (k c : Block) : Block :=
  ⟨toyByteBack k.b0 c.b7, toyByteBack k.b1 c.b0, toyByteBack k.b2 c.b1, toyByteBack k.b3 c.b2,
   toyByteBack k.b4 c.b3, toyByteBack k.b5 c.b4, toyByteBack k.b6 c.b5, toyByteBack k.b7 c.b6⟩

def toy (policy : PadPolicy) : Params := ⟨toyE, toyD, policy⟩

def keyA : Block := ⟨0x01, 0x02, 0x03, 0x04, 0x05, 0x06, 0x07, 0x08⟩
def keyB : Block := ⟨0x09, 0x0A, 0x0B, 0x0C, 0x0D, 0x0E, 0x0F, 0x10⟩
def keyC : Block := ⟨0x11, 0x12, 0x13, 0x14, 0x15, 0x16, 0x17, 0x18⟩
def ivA : Block := ⟨0xA0, 0xA1, 0xA2, 0xA3, 0xA4, 0xA5, 0xA6, 0xA7⟩
def blockP : Bytes := [0x11, 0x22, 0x33, 0x44, 0x55, 0x66, 0x77, 0x88]
def blockC : Bytes := [0x12, 0x43, 0x34, 0x65, 0x56, 0x87, 0x88, 0x21]
/-- `41 42 43 44 45 46 47`. -/
def sevenA : Bytes := [0x41, 0x42, 0x43, 0x44, 0x45, 0x46, 0x47]

/-- After `CONFIG` with a mode and `SETKEY K24`. -/
def triple (m : Mode) : State := { State.reset with mode := m, keyclass := .triple, k1 := keyA, k2 := keyB, k3 := keyC }

/-- After `CONFIG` with a mode and `SETKEY KA`. -/
def single (m : Mode) : State := { State.reset with mode := m, keyclass := .single, k1 := keyA }

/-- After `SETIV IVA`. -/
def withIv (s : State) : State := { s with baseiv := ivA, enciv := ivA, deciv := ivA }

/-- The output payload of a rule, or its error. -/
def outOf (r : Result) : Except CmdError Bytes := r.map (·.2)

/-- A register after a rule that ended with `OK`. -/
def regOf (f : State → Block) (r : Result) : Option Block := (r.toOption).map (fun x => f x.1)

/-- The state after a step; the state before it where there is none. -/
def stepped (s : State) : State :=
  match step s with
  | .next t => t
  | .fault _ => s
  | .refused _ => s

/-! ## WellFormed -/

/-- R50: with a bound of 1 on the payload, two bytes are refused, whichever command carries them. -/
theorem test_wellformed_setkey : Instr.fits (some 1) (.setkey [0x01, 0x02]) = false := by decide
theorem test_wellformed_setiv : Instr.fits (some 1) (.setiv [0x01, 0x02]) = false := by decide
theorem test_wellformed_encrypt : Instr.fits (some 1) (.encrypt [0x01, 0x02]) = false := by decide
theorem test_wellformed_decrypt : Instr.fits (some 1) (.decrypt [0x01, 0x02]) = false := by decide
theorem test_wellformed_bkhint : Instr.fits (some 1) (.bkhint [0x01, 0x02]) = false := by decide
/-- R50: at the bound, and without a payload, a command fits. -/
theorem test_wellformed_ok : Instr.fits (some 1) (.setkey [0x01]) = true ∧ Instr.fits (some 0) (.config 0xFF) = true ∧
    Instr.fits (some 0) .enpad = true := by decide

/-! ## Decoding: the words of 95_test_vectors.md, section 2.1, and of the opcode map R74 -/

theorem test_decode_config : decode ⟨0b0000000000000000_00000011_00000001, []⟩ = .ok (.config 0x03) := by decide
theorem test_decode_setkey : decode ⟨0b0000000000000000_00000000_00000010, [0xAA]⟩ = .ok (.setkey [0xAA]) := by decide
theorem test_decode_setiv : decode ⟨0b0000000000000000_00000000_00000011, [0xA0]⟩ = .ok (.setiv [0xA0]) := by decide
theorem test_decode_enpad : decode ⟨0b0000000000000000_00000000_00000100, []⟩ = .ok .enpad := by decide
theorem test_decode_dispad : decode ⟨0b0000000000000000_00000000_00000101, []⟩ = .ok .dispad := by decide
theorem test_decode_encont : decode ⟨0b0000000000000000_00000000_00000110, []⟩ = .ok .encont := by decide
theorem test_decode_discont : decode ⟨0b0000000000000000_00000000_00000111, []⟩ = .ok .discont := by decide
theorem test_decode_encrypt : decode ⟨0b0000000000000000_00000000_00001000, blockP⟩ = .ok (.encrypt blockP) := by decide
theorem test_decode_decrypt : decode ⟨0b0000000000000000_00000000_00001001, blockP⟩ = .ok (.decrypt blockP) := by decide
theorem test_decode_bkhint : decode ⟨0b0000000000000000_00000000_00001010, [0x78]⟩ = .ok (.bkhint [0x78]) := by decide

/-- V58 to V60: opcodes below and above the map. -/
theorem test_decode_unassigned : decode ⟨0x00000000, []⟩ = .error .unassignedOpcode ∧
    decode ⟨0x0000000B, []⟩ = .error .unassignedOpcode ∧ decode ⟨0x000000FF, []⟩ = .error .unassignedOpcode := by decide
/-- V61, V66: reserved bits, the lowest and the highest. -/
theorem test_decode_reserved : decode ⟨0x00010008, blockP⟩ = .error .reservedBits ∧
    decode ⟨0x80000008, blockP⟩ = .error .reservedBits := by decide
/-- V63, V67: an argument on another command than `CONFIG`. -/
theorem test_decode_stray_argument : decode ⟨0x00000104, []⟩ = .error .strayArgument ∧
    decode ⟨0x00000103, [0x61, 0x62, 0x63]⟩ = .error .strayArgument := by decide
/-- V64, V65: a payload on formats N and A. -/
theorem test_decode_stray_payload : decode ⟨0x00000004, [0x00]⟩ = .error .strayPayload ∧
    decode ⟨0x00000201, [0x00]⟩ = .error .strayPayload := by decide
/-- R74: the word of a table row, bit 0 the least significant. -/
theorem test_decode_table_word : decodeTableWord 32 0x00000201 = some (.config 0x02) ∧
    decodeTableWord 32 0x00000008 = some (.encrypt []) ∧ decodeTableWord 32 0x0000000B = none := by decide

/-- R82: the lines of its examples. -/
theorem test_text : instrText (.config 0x01) = ["CONFIG", "ECB"] ∧ instrText (.config 0x09) = ["CONFIG", "0x09"] ∧
    instrText (.setkey [0x01, 0xEF]) = ["SETKEY", "01", "EF"] ∧ instrText .dispad = ["DISPAD"] ∧
    instrText (.encrypt []) = ["ENCRYPT", "<>"] := by decide

/-! ## Control commands -/

/-- V54, V62: unassigned mode codes select CBC. -/
theorem test_config_mode : modeOfArg 0xFF = .cbc ∧ modeOfArg 0x00 = .cbc ∧ modeOfArg 0x07 = .cbc ∧
    modeOfArg 0x01 = .ecb ∧ modeOfArg 0x02 = .cbc ∧ modeOfArg 0x03 = .legacy := by decide
/-- R90: `CONFIG LEGACY` clears the key, the IVs and the flags; program 5, line 7. -/
theorem test_config_clears : exec (.config 0x03) { withIv (triple .ecb) with paden := false, conten := true, cmdidx := 6 } =
    .next { State.reset with mode := .legacy, cmdidx := 7, response := some ⟨0x00, []⟩ } := rfl
/-- R91: `PADEN = 1`. -/
theorem test_enpad : exec .enpad { State.reset with paden := false } =
    .next { State.reset with cmdidx := 1, response := some ⟨0x00, []⟩ } := rfl
/-- R92: `PADEN = 0`. -/
theorem test_dispad : exec .dispad State.reset =
    .next { State.reset with paden := false, cmdidx := 1, response := some ⟨0x00, []⟩ } := rfl
/-- R122: `CONTEN = 1`, the slots as they were. -/
theorem test_encont : exec .encont { State.reset with enciv := ivA } =
    .next { State.reset with enciv := ivA, conten := true, cmdidx := 1, response := some ⟨0x00, []⟩ } := rfl
/-- R123, V34: both slots back to the base IV. -/
theorem test_discont : exec .discont { withIv State.reset with conten := true, enciv := keyA, deciv := keyB } =
    .next { withIv State.reset with cmdidx := 1, response := some ⟨0x00, []⟩ } := rfl
/-- V38: `SETIV 01*8` loads the base IV and both slots although `CONTEN = 1`. -/
theorem test_setiv : exec (.setiv (rep 0x01 8)) { withIv State.reset with conten := true } =
    .next { State.reset with baseiv := ⟨1, 1, 1, 1, 1, 1, 1, 1⟩, enciv := ⟨1, 1, 1, 1, 1, 1, 1, 1⟩,
                             deciv := ⟨1, 1, 1, 1, 1, 1, 1, 1⟩, conten := true, cmdidx := 1,
                             response := some ⟨0x00, []⟩ } := rfl
/-- V72, V73: 7 and 9 bytes. -/
theorem test_setiv_length : exec (.setiv (rep 0xA0 7)) State.reset =
      .next { State.reset with cmdidx := 1, response := some ⟨0x03, []⟩ } ∧
    exec (.setiv (rep 0xA0 9)) State.reset =
      .next { State.reset with cmdidx := 1, response := some ⟨0x03, []⟩ } := ⟨rfl, rfl⟩
/-- R28: `KEYCLASS = TRIPLE`, `CONTEN = 1`, `PADEN = 0`, `MODE = LEGACY`; and `SINGLE`, `0`, `1`, `ECB`. -/
theorem test_ctrl : ctrl { triple .legacy with conten := true, paden := false } = 0b101011 ∧
    ctrl (single .ecb) = 0b010101 := by decide
/-- V76: a no-op. -/
theorem test_bkhint : exec (.bkhint [0x78]) (triple .ecb) =
    .next { triple .ecb with cmdidx := 1, response := some ⟨0x00, []⟩ } := rfl

/-! ## Keys: 95_test_vectors.md, section 2.2 -/

/-- V2, V3, V4: 3, 8 and 9 bytes. -/
theorem test_setkey_short : deriveSubKeys [0xAA, 0xBB, 0xCC] = .single ⟨0xAA, 0xBB, 0xCC, 0, 0, 0, 0, 0⟩ ∧
    deriveSubKeys (blockBytes keyA) = .single keyA ∧
    deriveSubKeys (blockBytes keyA ++ [0x09]) = .triple keyA ⟨0x09, 0, 0, 0, 0, 0, 0, 0⟩ keyA := by decide
/-- V5, V5a, V5b, V8: 16, 17, 20 and 30 bytes. -/
theorem test_setkey_long : deriveSubKeys (blockBytes keyA ++ blockBytes keyB) = .triple keyA keyB keyA ∧
    deriveSubKeys (blockBytes keyA ++ blockBytes keyB ++ [0x11]) = .triple keyA keyB ⟨0x11, 0, 0, 0, 0, 0, 0, 0⟩ ∧
    deriveSubKeys (blockBytes keyA ++ blockBytes keyB ++ [0x11, 0x12, 0x13, 0x14]) =
      .triple keyA keyB ⟨0x11, 0x12, 0x13, 0x14, 0, 0, 0, 0⟩ ∧
    deriveSubKeys (blockBytes keyA ++ blockBytes keyB ++ blockBytes keyC ++ [0x19, 0x1A, 0x1B, 0x1C, 0x1D, 0x1E]) =
      .triple keyA keyB keyC := by decide

/-! ## The primitive and the Padder: sections 0 and 2.3 -/

/-- T1, T2. -/
theorem test_toy : toyE keyA ⟨0x10, 0x20, 0x30, 0x40, 0x50, 0x60, 0x70, 0x80⟩ =
      ⟨0x24, 0x36, 0x48, 0x5A, 0x6C, 0x7E, 0x90, 0x12⟩ ∧
    toyD keyA ⟨0x10, 0x20, 0x30, 0x40, 0x50, 0x60, 0x70, 0x80⟩ =
      ⟨0x7E, 0x0C, 0x1E, 0x28, 0x3E, 0x4C, 0x5E, 0x60⟩ := by decide
/-- V10: residues 0, 7 and 0 again. -/
theorem test_pad : pad [] = rep 0x08 8 ∧ pad sevenA = sevenA ++ [0x01] ∧
    pad (sevenA ++ [0x48]) = sevenA ++ [0x48] ++ rep 0x08 8 := by decide
/-- V12. -/
theorem test_zext8 : zext8 [] = [] ∧ zext8 [0x11, 0x22, 0x33] = [0x11, 0x22, 0x33, 0, 0, 0, 0, 0] ∧ zext8 blockP = blockP := by
  decide
/-- V11b, V11e, V11f, V11k, V11o under `LENIENT`. -/
theorem test_unpad_lenient : unpad .lenient (sevenA ++ [0x01]) = .ok sevenA ∧
    unpad .lenient (sevenA ++ [0x00]) = .ok (sevenA ++ [0x00]) ∧ unpad .lenient (sevenA ++ [0x09]) = .error .pad ∧
    unpad .lenient [0x41, 0x42, 0x43, 0x44, 0x45, 0x46, 0x03, 0x02] = .ok [0x41, 0x42, 0x43, 0x44, 0x45, 0x46] ∧
    unpad .lenient [] = .error .pad := by decide
/-- The same under `STRICT`, and V11c. -/
theorem test_unpad_strict : unpad .strict (sevenA ++ [0x01]) = .ok sevenA ∧
    unpad .strict (sevenA ++ [0x00]) = .error .pad ∧ unpad .strict (sevenA ++ [0x09]) = .error .pad ∧
    unpad .strict [0x41, 0x42, 0x43, 0x44, 0x45, 0x46, 0x03, 0x02] = .error .pad ∧
    unpad .strict (rep 0x08 8) = .ok [] := by decide

/-! ## ENCRYPT and DECRYPT under TOY: sections 2.4 to 2.7 -/

/-- V7e. -/
theorem test_encrypt_ecb : outOf (encryptBody (toy .lenient) blockP { triple .ecb with paden := false }) =
    .ok blockC := by decide
/-- V31: the second block is chained to the first. -/
theorem test_encrypt_cbc : outOf (encryptBody (toy .lenient) (blockP ++ blockP) { withIv (triple .cbc) with paden := false }) =
    .ok [0x73, 0xA5, 0xD7, 0x09, 0xBB, 0xED, 0x2F, 0xC1, 0x77, 0xDA, 0x6D, 0x10, 0xB3, 0x66, 0x49, 0x54] := by decide
/-- V33: padded decryption back to 10 bytes. -/
theorem test_decrypt_cbc : outOf (decryptBody (toy .strict)
      [0x94, 0x96, 0x98, 0x9A, 0x9C, 0x9E, 0xC0, 0x92, 0x9F, 0xA0, 0x9C, 0xA4, 0xA4, 0xB8, 0xB4, 0x9E]
      (withIv (triple .cbc))) =
    .ok [0x00, 0x01, 0x02, 0x03, 0x04, 0x05, 0x06, 0x07, 0x08, 0x09] := by decide
/-- V34: with `CONTEN = 1` each direction's slot takes the last ciphertext block. -/
theorem test_cbc_slots :
    regOf State.enciv (encryptBody (toy .lenient) [0x00, 0x01, 0x02, 0x03, 0x04, 0x05, 0x06, 0x07]
      { withIv (triple .cbc) with conten := true, paden := false }) =
      some ⟨0x94, 0x96, 0x98, 0x9A, 0x9C, 0x9E, 0xC0, 0x92⟩ ∧
    regOf State.deciv (decryptBody (toy .lenient) [0x94, 0x96, 0x98, 0x9A, 0x9C, 0x9E, 0xC0, 0x92]
      { withIv (triple .cbc) with conten := true, paden := false }) =
      some ⟨0x94, 0x96, 0x98, 0x9A, 0x9C, 0x9E, 0xC0, 0x92⟩ := by decide
/-- V36: a truncated ciphertext is zero-extended and decrypted to garbage. -/
theorem test_decrypt_ragged : outOf (decryptBody (toy .lenient) [0x12, 0x43, 0xF8, 0xFA, 0xFC]
    { triple .cbc with paden := false }) = .ok [0xFE, 0x22, 0x33, 0x00, 0x00, 0x00, 0xFE, 0xE0] := by decide
/-- V77: `ERR_PAD` in a continuous stream, under both policies. -/
theorem test_decrypt_bad_padding :
    decryptBody (toy .lenient) [0xD3, 0xD5, 0xD7, 0xD9, 0xDB, 0xDD, 0x58, 0xD1]
      { withIv (triple .cbc) with conten := true } = .error .pad ∧
    decryptBody (toy .strict) [0xD3, 0xD5, 0xD7, 0xD9, 0xDB, 0xDD, 0x58, 0xD1]
      { withIv (triple .cbc) with conten := true } = .error .pad := by decide
/-- V40: two blocks through the cascade, and the registers of stages 1 and 3. -/
theorem test_legacy_encrypt :
    outOf (encryptBody (toy .lenient) (blockP ++ rep 0x01 8) (triple .legacy)) =
      .ok (blockC ++ [0x52, 0x69, 0x74, 0x87, 0x96, 0xB5, 0x40, 0x43]) ∧
    regOf State.sdec2 (encryptBody (toy .lenient) (blockP ++ rep 0x01 8) (triple .legacy)) =
      some ⟨0x32, 0x49, 0x54, 0x67, 0x76, 0x95, 0x20, 0x23⟩ := by decide
/-- V42 in one call: the cascade backwards. -/
theorem test_legacy_decrypt :
    outOf (decryptBody (toy .strict) (blockC ++ [0x52, 0x69, 0x74, 0x87, 0x96, 0xB5, 0x40, 0x43]) (triple .legacy)) =
      .ok (blockP ++ rep 0x01 8) ∧
    regOf State.senc2 (decryptBody (toy .strict) (blockC ++ [0x52, 0x69, 0x74, 0x87, 0x96, 0xB5, 0x40, 0x43])
      (triple .legacy)) = some ⟨0x32, 0x49, 0x54, 0x67, 0x76, 0x95, 0x20, 0x23⟩ := by decide
/-- V45: a short key in LEGACY mode is padded, chained single DES. -/
theorem test_legacy_short_key : outOf (encryptBody (toy .lenient) [0x11, 0x22, 0x33] (withIv (single .legacy))) =
    .ok [0x83, 0x95, 0xA6, 0xA9, 0xAC, 0xAB, 0xB2, 0xB1] := by decide
/-- V70, V71. -/
theorem test_no_key : exec (.encrypt blockP) State.reset =
      .next { State.reset with cmdidx := 1, response := some ⟨0x02, []⟩ } ∧
    exec (.decrypt blockP) State.reset =
      .next { State.reset with cmdidx := 1, response := some ⟨0x02, []⟩ } := ⟨rfl, rfl⟩
/-- Program 1: 3 primitive calls for each of 2 blocks; V37: one for each with a short key. -/
theorem test_prim_calls : primCalls (.encrypt (zeros 10)) (triple .cbc) = 6 ∧
    primCalls (.encrypt (blockP ++ blockP)) { single .cbc with paden := false } = 2 := by decide

/-! ## Steps -/

/-- V79: illegal before no key. -/
theorem test_step_illegal : step { State.reset with pending := [.command ⟨0x80000008, blockP⟩] } =
    .next { State.reset with cmdidx := 1, response := some ⟨0x01, []⟩ } := rfl
/-- R180: a reset that abandons a command. -/
theorem test_step_reset : step { withIv (triple .legacy) with cmdidx := 5, pending := [.reset (some ⟨0x00000008, blockP⟩)] } =
    .next State.reset := rfl
/-- R172: idle. -/
theorem test_step_idle : step State.reset = .next State.reset := rfl
/-- A table word placed in front is the next thing that runs. -/
theorem test_step_table_word : step (State.reset.withFetchWord 32 0x00000006) =
    .next { State.reset with conten := true, cmdidx := 1, response := some ⟨0x00, []⟩ } := rfl

/-! ## Witnesses: the hypotheses of the obligations can be met, clause by clause -/

/-- A host about to present `ENPAD`. -/
def busy : State := { State.reset with pending := [.command ⟨0x00000004, []⟩] }

/-- A CBC engine with a short key, unequal to the reset state in every register a hypothesis names. -/
def stream : State := { withIv (single .cbc) with conten := true, paden := false }

theorem test_witness_DecodeEncodeRoundTrip :
    Instr.wellFormed (.config 0xFF) = true ∧ Instr.wellFormed (.encrypt blockP) = true := by decide
theorem test_witness_EncodeDecodeRoundTrip :
    decode ⟨0x0000FF01, []⟩ = .ok (.config 0xFF) ∧ decode ⟨0x0000000A, []⟩ = .ok (.bkhint []) := by decide
theorem test_witness_DecodingFollowsOpcodeMap : decode ⟨0x00000009, blockP⟩ = .ok (.decrypt blockP) ∧
    ∀ r ∈ opcodeMap, r.selects r.pattern = true ∧ r.allows [] = true := by decide
/-- A boundary word for each clause: reserved bits, opcodes 0, 11 and 255, arguments on opcodes 2 and 10, payloads on opcodes 1, 4
and 7, and legal commands. -/
theorem test_witness_IllegalCommandTests :
    (0x00010000 : CmdWord).toNat / 65536 ≠ 0 ∧ (0xFFFF0001 : CmdWord).toNat / 65536 ≠ 0 ∧
    (0x0000FF0B : CmdWord).toNat / 65536 = 0 ∧ 11 ≤ (0x0000FF0B : CmdWord).toNat % 256 ∧
    (0x00000000 : CmdWord).toNat % 256 = 0 ∧ 11 ≤ (0x000000FF : CmdWord).toNat % 256 ∧
    (0x00000102 : CmdWord).toNat % 256 = 2 ∧ (0x00000102 : CmdWord).toNat / 256 % 256 ≠ 0 ∧
    (0x0000FF0A : CmdWord).toNat % 256 = 10 ∧ (0x0000FF0A : CmdWord).toNat / 256 % 256 ≠ 0 ∧
    (0x0000FF01 : CmdWord).toNat % 256 ∈ [1, 4, 5, 6, 7] ∧ (0x00000007 : CmdWord).toNat % 256 ∈ [1, 4, 5, 6, 7] ∧
    (0x00000007 : CmdWord).toNat / 256 % 256 = 0 ∧ [(0x00 : Byte)] ≠ [] ∧
    (0x00000001 : CmdWord).toNat % 256 = 1 ∧ (0x0000000A : CmdWord).toNat % 256 = 10 ∧
    decode ⟨0x00010000, []⟩ = .error .reservedBits := by decide
theorem test_witness_StepRunsDecodedCommand : busy.pending = [.command ⟨0x00000004, []⟩] ∧
    decode ⟨0x00000004, []⟩ = .ok .enpad ∧ Instr.wellFormed .enpad = true ∧
    decodeTableWord 32 0x00000004 = some .enpad ∧ State.reset.pending = [] := by decide
theorem test_witness_IllegalCommandStep : ({ busy with pending := [.command ⟨0x00000000, []⟩] } : State).pending =
    .command ⟨0x00000000, []⟩ :: [] ∧ decode ⟨0x00000000, []⟩ = .error .unassignedOpcode := by decide
/-- A reset in the idle state with nothing after it, and one that abandons a command with an event after it. -/
theorem test_witness_ResetEventRestores :
    ({ stream with pending := [.reset none] } : State).pending = .reset none :: [] ∧
    ({ stream with pending := .reset (some ⟨0x00000008, blockP⟩) :: busy.pending } : State).pending =
      .reset (some ⟨0x00000008, blockP⟩) :: busy.pending := by decide
theorem test_witness_ControlOrderIrrelevant : controlGroup (.setkey []) = some 0 ∧ controlGroup (.setiv (rep 0 8)) = some 1 ∧
    controlGroup .dispad = some 2 ∧ controlGroup .discont = some 3 ∧ (0 : Nat) ≠ 1 ∧ (2 : Nat) ≠ 3 := by decide
theorem test_witness_SetivLoadsOrRejects :
    (rep 0x01 8).length = 8 ∧ (rep 0x01 7).length ≠ 8 ∧ (rep 0x01 9).length ≠ 8 ∧ ([] : Bytes).length ≠ 8 := by decide
/-- The lengths at which the clauses meet: 0, 8, 9, 16, 17, 24 and 25. -/
theorem test_witness_SetkeyByLength : ([] : Bytes).length ≤ 8 ∧ (rep 1 8).length ≤ 8 ∧ 9 ≤ (rep 1 9).length ∧
    (rep 1 9).length ≤ 16 ∧ (rep 1 16).length ≤ 16 ∧ 17 ≤ (rep 1 17).length ∧ (rep 1 17).length ≤ 24 ∧
    (rep 1 24).length ≤ 24 ∧ 24 < (rep 1 25).length := by decide
theorem test_witness_SetkeyIgnoresBytesPast24 :
    (rep 1 24 ++ [0x02]).take 24 = (rep 1 24 ++ [0x03]).take 24 ∧ rep 1 24 ++ [0x02] ≠ rep 1 24 ++ [0x03] := by decide
theorem test_witness_SetkeyIdempotent :
    deriveSubKeys (blockBytes keyA ++ [0x09]) = .triple keyA ⟨0x09, 0, 0, 0, 0, 0, 0, 0⟩ keyA := by decide
theorem test_witness_KeyForms : stream.mode ≠ .legacy ∧ (triple .ecb).mode ≠ .legacy := by decide
/-- A buffer for each clause of the table: last byte 0, 1 and 8 with a good pattern, 2 and 8 with a broken one, 9 in 16 bytes, 16 in
16 bytes, and 9 and 255 in 8 bytes. -/
theorem test_witness_UnpadTable : (sevenA.length + 1) % 8 = 0 ∧ (0x00 : Byte).toNat = 0 ∧
    (∀ j, j < 1 → (sevenA ++ [0x01])[8 - 1 - j]? = some (0x01 : Byte)) ∧
    (∀ j, j < 8 → (rep 0x08 8)[8 - 1 - j]? = some (0x08 : Byte)) ∧
    (∃ j, j < 2 ∧ (sevenA ++ [0x02])[8 - 1 - j]? ≠ some (0x02 : Byte)) ∧
    (∃ j, j < 8 ∧ (sevenA ++ [0x08])[8 - 1 - j]? ≠ some (0x08 : Byte)) ∧
    9 ≤ (0x09 : Byte).toNat ∧ (0x10 : Byte).toNat ≤ (rep 0x08 8 ++ sevenA ++ [0x10]).length ∧
    (sevenA ++ [0x09]).length < (0x09 : Byte).toNat ∧ (sevenA ++ [0xFF]).length < (0xFF : Byte).toNat :=
  ⟨by decide, by decide, by decide, by decide, ⟨1, by decide⟩, ⟨1, by decide⟩, by decide, by decide, by decide, by decide⟩
theorem test_witness_UnpadInvertsPad : (rep 0x08 8).length % 8 = 0 ∧ rep 0x08 8 = pad [] := by decide
theorem test_witness_ZeroExtension : blockP.length % 8 = 0 ∧ ([] : Bytes).length % 8 = 0 ∧ sevenA.length % 8 ≠ 0 := by decide
theorem test_witness_BlockTransforms : (triple .cbc).keyclass = .triple ∧ (single .cbc).keyclass = .single := by decide
theorem test_witness_DataCommandsNeedKey : State.reset.keyclass = .none := by decide
theorem test_witness_EncryptEcbBlocks : (triple .ecb).keyclass ≠ .none ∧ (triple .ecb).mode = .ecb ∧
    (single .ecb).keyclass ≠ .none ∧ (single .ecb).mode = .ecb := by decide
theorem test_witness_EncryptCbcChain : (triple .cbc).keyclass ≠ .none ∧ cbcMode (triple .cbc) = true ∧
    (single .legacy).keyclass ≠ .none ∧ cbcMode (single .legacy) = true := by decide

/-- Decrypting one block `08*8` that a short key encrypted in ECB: `unpad` succeeds under either policy. -/
theorem test_buffer_padded (k : Block) : unpad Config.padPolicy (decryptBuffer Config.params
    (blockBytes (Config.params.desE k ⟨8, 8, 8, 8, 8, 8, 8, 8⟩)) { single .ecb with k1 := k }).2 = .ok [] := by
  have h : (decryptBuffer Config.params (blockBytes (Config.params.desE k ⟨8, 8, 8, 8, 8, 8, 8, 8⟩))
      { single .ecb with k1 := k }).2 =
      blockBytes (Config.params.desD k (Config.params.desE k ⟨8, 8, 8, 8, 8, 8, 8, 8⟩)) ++ [] := by
    rw [decryptBuffer_ecb _ _ rfl, decryptInput, zext8_of_aligned (by rw [length_blockBytes])]; rfl
  rw [h, Config.params_inverse.dec_enc]
  exact unpad_append_rep Config.padPolicy [] (n := 8) (by decide) (by decide)

/-- Decrypting nothing: `unpad` fails under either policy, in ECB and in CBC. -/
theorem test_buffer_empty (s : State) : unpad Config.padPolicy (decryptBuffer Config.params [] s).2 = .error .pad := by
  have h : (decryptBuffer Config.params [] s).2 = [] :=
    List.eq_nil_of_length_eq_zero (length_decryptBuffer Config.params [] s)
  rw [h]; rfl

/-- A clause for each value of `PADEN` and each answer of `unpad` (the two theorems before this one). -/
theorem test_witness_DecryptEcbBlocks : (single .ecb).keyclass ≠ .none ∧ (single .ecb).mode = .ecb ∧
    (single .ecb).paden = true ∧ ({ single .ecb with paden := false } : State).paden = false := by decide
theorem test_witness_DecryptCbcChain : (single .cbc).keyclass ≠ .none ∧ cbcMode (single .cbc) = true ∧
    (single .cbc).paden = true ∧ stream.paden = false ∧ cbcMode stream = true := by decide

/-- In CBC, from a zero IV, the same block decrypts to the same padding. -/
theorem test_buffer_padded_cbc (k : Block) : unpad Config.padPolicy (decryptBuffer Config.params
    (blockBytes (Config.params.desE k ⟨8, 8, 8, 8, 8, 8, 8, 8⟩)) { single .cbc with k1 := k }).2 = .ok [] := by
  have h : (decryptBuffer Config.params (blockBytes (Config.params.desE k ⟨8, 8, 8, 8, 8, 8, 8, 8⟩))
      { single .cbc with k1 := k }).2 =
      blockBytes (xorBlock (Config.params.desD k (Config.params.desE k ⟨8, 8, 8, 8, 8, 8, 8, 8⟩)) Block.zeros) ++ [] := by
    rw [decryptBuffer_cbc _ _ (by simp [single]), decryptInput, zext8_of_aligned (by rw [length_blockBytes])]; rfl
  rw [h, Config.params_inverse.dec_enc, xorBlock_zeros]
  exact unpad_append_rep Config.padPolicy [] (n := 8) (by decide) (by decide)

/-- ECB: two equal blocks of one message. CBC: a first difference in block 0 and one in block 1. -/
theorem test_witness_EcbIndependenceCbcPropagation :
    (single .ecb).keyclass ≠ .none ∧ (single .ecb).mode = .ecb ∧ stream.keyclass ≠ .none ∧ cbcMode stream = true ∧
    (toBlocks (blockP ++ blockP))[0]? = (toBlocks (blockP ++ blockP))[1]? ∧
    (toBlocks (blockP ++ blockP))[0]? = (toBlocks (blockP ++ blockC))[0]? ∧
    (toBlocks (blockP ++ blockP))[1]? ≠ (toBlocks (blockP ++ blockC))[1]? ∧
    (toBlocks (blockP ++ blockC))[1]? = some (blockOf blockC) ∧ blockOf blockP ≠ blockOf blockC := by decide
theorem test_witness_OutputLengths : (single .cbc).keyclass ≠ .none ∧ paddingApplies (single .cbc) = true ∧
    paddingApplies stream = false ∧ paddingApplies (triple .legacy) = false ∧ (triple .legacy).keyclass ≠ .none := by decide
/-- A padded `DECRYPT` that ends with `OK`. -/
theorem test_witness_OutputLengths_padded (k : Block) : (bodyOf (.decrypt
    (blockBytes (Config.params.desE k ⟨8, 8, 8, 8, 8, 8, 8, 8⟩))) { single .ecb with k1 := k }) =
    .ok ({ single .ecb with k1 := k }, []) := by
  have h : unpad Config.params.padPolicy _ = _ := test_buffer_padded k
  rw [bodyOf, decryptBody_padded _ _ (by simp [single]) rfl rfl, h, decryptBuffer_ecb _ _ rfl]; rfl
theorem test_witness_LegacyEncryptStages : (triple .legacy).mode = .legacy ∧ (triple .legacy).keyclass = .triple ∧
    (toBlocks (zext8 (blockP ++ blockC)))[1]? = some (blockOf blockC) := by decide
theorem test_witness_LegacyDecryptStages : (triple .legacy).mode = .legacy ∧ (triple .legacy).keyclass = .triple ∧
    (toBlocks (zext8 (blockP ++ blockC)))[1]? = some (blockOf blockC) := by decide
theorem test_witness_LegacyIgnoresFlagsAndIvs :
    (withIv (triple .legacy)).mode = .legacy ∧ (withIv (triple .legacy)).keyclass = .triple := by decide
theorem test_witness_LegacyShortKeyIsCbc : stream.keyclass = .single ∧ stream.mode = .cbc := by decide
/-- A 9-byte key, two chunks on one side, and on the other one chunk or none. -/
theorem test_witness_LegacySelfConsistency : 8 < (blockBytes keyA ++ [0x09]).length ∧
    (∀ p ∈ [blockP, blockP ++ blockC], p.length % 8 = 0) ∧ (∀ q ∈ [blockC ++ blockP ++ blockP], q.length % 8 = 0) ∧
    [blockC ++ blockP ++ blockP].flatten = outputs [⟨0x00, blockC⟩, ⟨0x00, blockP ++ blockP⟩] := by decide
theorem test_witness_PseudoCommandsExpand : (blockBytes ivA).length = 8 := by decide
theorem test_witness_RoundTrip : stream.keyclass ≠ .none ∧ legacyActive stream = false ∧ SameKey stream stream ∧
    stream.conten = true ∧ stream.enciv = stream.deciv := by unfold SameKey; decide
theorem test_witness_ContinuousBufferEquivalence : (∀ p ∈ [blockP, blockC], p.length % 8 = 0) ∧ stream.keyclass ≠ .none ∧
    legacyActive stream = false ∧ stream.enciv = stream.baseiv ∧
    SameKey stream { stream with conten := false, paden := true } := by unfold SameKey; decide
theorem test_witness_DiscontinuousIsolation :
    (withIv (single .cbc)).conten = false ∧ legacyActive (withIv (single .cbc)) = false := by decide
/-- Both sides of each clause of the frames: outside CBC with `CONTEN = 1`, and outside the cascade. -/
theorem test_witness_EncryptFrame : ¬(cbcMode (triple .ecb) = true ∧ (triple .ecb).conten = true) ∧
    legacyActive stream = false := by decide
theorem test_witness_DecryptFrame : ¬(cbcMode (triple .ecb) = true ∧ (triple .ecb).conten = true) ∧
    legacyActive stream = false := by decide
/-- Every register is changed by some command, so that each clause says something. -/
theorem test_witness_RegistersWrittenOnlyByTheirCommands :
    ∃ t u v w : State, exec (.config 0x01) stream = .next t ∧ exec (.setkey (blockBytes keyA ++ blockBytes keyB)) stream = .next u ∧
      exec (.setiv (rep 0x01 8)) stream = .next v ∧ exec (.config 0x01) { stream with senc1 := keyA, sdec3 := keyB } = .next w ∧
      t.mode ≠ stream.mode ∧ t.paden ≠ stream.paden ∧ t.conten ≠ stream.conten ∧ u.keyclass ≠ stream.keyclass ∧
      u.keyclass ≠ .none ∧ ¬(u.k1 = stream.k1 ∧ u.k2 = stream.k2 ∧ u.k3 = stream.k3) ∧
      v.baseiv ≠ stream.baseiv ∧ v.enciv ≠ stream.enciv ∧ v.deciv ≠ stream.deciv ∧
      w.senc .one ≠ keyA ∧ w.sdec .three ≠ keyB :=
  ⟨_, _, _, _, rfl, rfl, rfl, rfl, by decide, by decide, by decide, by decide, by decide, by decide, by decide, by decide,
    by decide, by decide, by decide⟩
/-- A non-empty output: one padded block. -/
theorem test_witness_EveryCommandCompletes : ∃ (t : State) (r : Response), exec (.encrypt []) (single .ecb) = .next t ∧
    t.response = some r ∧ r.out ≠ [] := ⟨_, _, rfl, rfl, by simp [ofBlocks, ecbEncrypt, encryptInput, paddingApplies, single,
      State.reset, legacyActive, pad, zext8, rep, toBlocks, blockBytes]⟩
theorem test_witness_ErrorsAreAtomic : ∃ (t : State) (r : Response), runCommand ⟨0x00000008, blockP⟩ State.reset = .next t ∧
    t.response = some r ∧ r.status ≠ 0x00 := ⟨_, _, rfl, rfl, by decide⟩
/-- Two states that differ only in a sub-key that no rule reads. -/
theorem test_witness_UnreadKeysInfluenceNothing : readableRegisters { stream with k2 := keyB, k3 := keyC } = readableRegisters stream ∧
    readableRegisters { State.reset with k1 := keyA } = readableRegisters State.reset ∧ stream.k2 ≠ keyB := by decide
theorem test_witness_PrimitiveCallCount : (single .ecb).keyclass ≠ .none ∧ (triple .legacy).keyclass ≠ .none := by decide
/-- States with each invariant and a step: with `CONTEN` 0 and 1, after a LEGACY stream, and outside LEGACY. -/
theorem test_witness_ChainInvariantKept : ChainInv busy ∧ ChainInv { stream with enciv := keyA, pending := busy.pending } ∧
    step busy = .next (stepped busy) :=
  ⟨fun _ => ⟨rfl, rfl⟩, fun h => absurd h (by decide), rfl⟩
theorem test_witness_StagePairsKept : StagePairInv { triple .legacy with senc1 := keyA, sdec2 := keyA } ∧
    step { triple .legacy with senc1 := keyA, sdec2 := keyA } = .next { triple .legacy with senc1 := keyA, sdec2 := keyA } :=
  ⟨⟨rfl, rfl⟩, rfl⟩
theorem test_witness_StageZerosKept : StageZeroInv { triple .legacy with senc1 := keyA, pending := busy.pending } ∧ StageZeroInv busy ∧
    step busy = .next (stepped busy) :=
  ⟨fun h => absurd h (by decide), fun _ => by unfold StagesZero; decide, rfl⟩

end Sys2Proof.Machine.Tests
end

section
/-! The block transforms (R131, R132, R139) by key class and their inverse laws, for any primitive that R10 allows; the
64-bit view of a block (R12) as a number, and the two directions of its bijection. -/

namespace Sys2Proof.Machine

/-! ## The block transforms by key class -/

section Transforms

variable (P : Params) {s : State}

theorem encryptBlock_none (h : s.keyclass = .none) (p : Block) : encryptBlock P s p = p := by
  simp [encryptBlock, h]

theorem decryptBlock_none (h : s.keyclass = .none) (c : Block) : decryptBlock P s c = c := by
  simp [decryptBlock, h]

theorem encryptBlock_single (h : s.keyclass = .single) (p : Block) : encryptBlock P s p = P.desE s.k1 p := by
  simp [encryptBlock, h]

theorem decryptBlock_single (h : s.keyclass = .single) (c : Block) : decryptBlock P s c = P.desD s.k1 c := by
  simp [decryptBlock, h]

theorem encryptBlock_triple (h : s.keyclass = .triple) (p : Block) :
    encryptBlock P s p = P.desE s.k3 (P.desD s.k2 (P.desE s.k1 p)) := by
  simp [encryptBlock, h]

theorem decryptBlock_triple (h : s.keyclass = .triple) (c : Block) :
    decryptBlock P s c = P.desD s.k1 (P.desE s.k2 (P.desD s.k3 c)) := by
  simp [decryptBlock, h]

end Transforms

/-- Under a long key the calls of the primitive cancel from the inside out: `K[3]`, then `K[2]`, then `K[1]`. -/
theorem decryptBlock_encryptBlock {P : Params} (hP : P.Inverse) (s : State) (b : Block) :
    decryptBlock P s (encryptBlock P s b) = b := by
  cases hk : s.keyclass with
  | none => rw [encryptBlock_none P hk, decryptBlock_none P hk]
  | single => rw [encryptBlock_single P hk, decryptBlock_single P hk, hP.dec_enc]
  | triple => rw [encryptBlock_triple P hk, decryptBlock_triple P hk, hP.dec_enc, hP.enc_dec, hP.dec_enc]

/-- Under a long key the calls of the primitive cancel from the inside out: `K[1]`, then `K[2]`, then `K[3]`. -/
theorem encryptBlock_decryptBlock {P : Params} (hP : P.Inverse) (s : State) (c : Block) :
    encryptBlock P s (decryptBlock P s c) = c := by
  cases hk : s.keyclass with
  | none => rw [decryptBlock_none P hk, encryptBlock_none P hk]
  | single => rw [decryptBlock_single P hk, encryptBlock_single P hk, hP.enc_dec]
  | triple => rw [decryptBlock_triple P hk, encryptBlock_triple P hk, hP.enc_dec, hP.dec_enc, hP.enc_dec]

/-! ## The 64-bit view of a block -/

/-- The view is the bytes read as a number in base 256: eight bytes never overflow 64 bits. -/
theorem blockView_toNat (b : Block) : (blockView b).toNat =
    b.b0.toNat * 2 ^ 56 + b.b1.toNat * 2 ^ 48 + b.b2.toNat * 2 ^ 40 + b.b3.toNat * 2 ^ 32 +
      b.b4.toNat * 2 ^ 24 + b.b5.toNat * 2 ^ 16 + b.b6.toNat * 2 ^ 8 + b.b7.toNat := by
  rw [blockView, BitVec.toNat_ofNat]
  omega

/-- The byte of a view above its lowest `k` bits, as a digit of the number. -/
theorem viewByte_toNat (v : BitVec 64) (k : Nat) : (v.extractLsb' k 8).toNat = v.toNat / 2 ^ k % 256 := by
  simp [BitVec.extractLsb'_toNat, Nat.shiftRight_eq_div_pow]

/-- A byte of a view is the byte whose value is that digit of the number. -/
theorem viewByte_eq {v : BitVec 64} {k : Nat} {x : Byte} (h : v.toNat / 2 ^ k % 256 = x.toNat) :
    v.extractLsb' k 8 = x :=
  BitVec.eq_of_toNat_eq ((viewByte_toNat v k).trans h)

/-- The digits of the view are the bytes of the block, byte 0 the most significant one. -/
theorem blockOfView_blockView (b : Block) : blockOfView (blockView b) = b := by
  have hv := blockView_toNat b
  rw [blockOfView, Block.mk.injEq]
  refine ⟨viewByte_eq ?_, viewByte_eq ?_, viewByte_eq ?_, viewByte_eq ?_, viewByte_eq ?_, viewByte_eq ?_,
    viewByte_eq ?_, viewByte_eq ?_⟩
  all_goals omega

/-- A 64-bit number is the sum of its eight digits in base 256. -/
theorem blockView_blockOfView (v : BitVec 64) : blockView (blockOfView v) = v := by
  apply BitVec.eq_of_toNat_eq
  simp only [blockView_toNat, blockOfView, viewByte_toNat]
  omega

end Sys2Proof.Machine

open Sys2Proof Sys2Proof.Machine

/-! ## The obligations -/

/-- Settles O26: the transforms by key class, and the inverse laws of the primitive (R10 (b), (c)) carried to them. -/
theorem blockTransforms : Obligations.BlockTransforms := fun s b =>
  ⟨fun h => ⟨encryptBlock_triple _ h b, decryptBlock_triple _ h b⟩,
    fun h => ⟨encryptBlock_single _ h b, decryptBlock_single _ h b⟩,
    decryptBlock_encryptBlock Config.params_inverse s b, encryptBlock_decryptBlock Config.params_inverse s b⟩

/-- Settles O60: the eight bytes are the fields of `blockOfView (blockView b) = b`. -/
theorem blockViewOrder : Obligations.BlockViewOrder := by
  refine ⟨fun b => ?_, blockView_blockOfView⟩
  have h := blockOfView_blockView b
  exact ⟨congrArg Block.b0 h, congrArg Block.b1 h, congrArg Block.b2 h, congrArg Block.b3 h, congrArg Block.b4 h,
    congrArg Block.b5 h, congrArg Block.b6 h, congrArg Block.b7 h, h⟩

end

section
/-! The state of the engine over all commands (`10_state.md`): what each command can do to the registers (`Effect`), and the
two-run form of the data commands, "the same answer and the same writes from every state that agrees on what the command reads".
From the first come the invariants and the "written by" column of R21, from the second every non-interference. -/

namespace Sys2Proof.Machine

/-! ## The chaining registers of the two directions, and the response -/

/-- The registers that `ENCRYPT` writes, and `DECRYPT` neither reads nor writes (R25, R126, R152). -/
def State.setEncryptChain (s : State) (e a b c : Block) : State :=
  { s with enciv := e, senc1 := a, sdec2 := b, senc3 := c }

/-- The registers that `DECRYPT` writes, and `ENCRYPT` neither reads nor writes (R25, R126, R153). -/
def State.setDecryptChain (s : State) (x a b c : Block) : State :=
  { s with deciv := x, sdec1 := a, senc2 := b, sdec3 := c }

/-- The chain of `ENCRYPT` taken over from another state. -/
def State.takeEncryptChain (s t : State) : State := s.setEncryptChain t.enciv t.senc1 t.sdec2 t.senc3

/-- The chain of `DECRYPT` taken over from another state. -/
def State.takeDecryptChain (s t : State) : State := s.setDecryptChain t.deciv t.sdec1 t.senc2 t.sdec3

/-- The response is delivered and `cmdidx` advances: what every end of a command has in common (R22, R160). -/
def State.respond (s : State) (r : Response) : State := { s with cmdidx := s.cmdidx + 1, response := some r }

theorem State.finish_eq_respond (s : State) (out : Bytes) : s.finish out = s.respond ⟨statusOk, out⟩ := rfl

theorem State.raiseError_eq_respond (s : State) (e : CmdError) : s.raiseError e = s.respond ⟨e.code, []⟩ := rfl

@[simp] theorem registers_setPending (s : State) (es : List HostEvent) : registers (s.setPending es) = registers s := rfl

@[simp] theorem registers_resetEvent (s : State) : registers s.resetEvent = registers State.reset := rfl

@[simp] theorem registers_finish (s : State) (out : Bytes) : registers (s.finish out) = registers s := rfl

@[simp] theorem registers_raiseError (s : State) (e : CmdError) : registers (s.raiseError e) = registers s := rfl

@[simp] theorem State.senc_finish (s : State) (out : Bytes) (n : Stage) : (s.finish out).senc n = s.senc n := rfl

@[simp] theorem State.sdec_finish (s : State) (out : Bytes) (n : Stage) : (s.finish out).sdec n = s.sdec n := rfl

@[simp] theorem State.senc_raiseError (s : State) (e : CmdError) (n : Stage) : (s.raiseError e).senc n = s.senc n := rfl

@[simp] theorem State.sdec_raiseError (s : State) (e : CmdError) (n : Stage) : (s.raiseError e).sdec n = s.sdec n := rfl

/-! ## What a command can do to the registers -/

/-- What `DECRYPT` can have written when it ends with `OK` (R136, R138, R153). -/
theorem decryptBody_ok {P : Params} {d out : Bytes} {s t : State} (h : decryptBody P d s = .ok (t, out)) :
    s.keyclass ≠ .none ∧ ∃ x a b c, t = s.setDecryptChain x a b c ∧
      (¬(cbcMode s = true ∧ s.conten = true) → x = s.deciv) ∧
      (legacyActive s = false → a = s.sdec1 ∧ b = s.senc2 ∧ c = s.sdec3) := by
  by_cases hk : s.keyclass = .none
  · rw [decryptBody_nokey _ _ hk] at h; cases h
  refine ⟨hk, ?_⟩
  by_cases hl : legacyActive s = true
  · rw [decryptBody_legacy _ _ hl] at h; cases h
    exact ⟨_, _, _, _, rfl, fun _ => rfl, by simp [hl]⟩
  have hl : legacyActive s = false := by simpa using hl
  have ht : t = (decryptBuffer P d s).1 := by
    cases hp : s.paden with
    | false => rw [decryptBody_unpadded _ _ hk hl hp] at h; injection h with h; rw [h]
    | true =>
      rw [decryptBody_padded _ _ hk hl hp] at h
      cases hu : unpad P.padPolicy (decryptBuffer P d s).2 <;> rw [hu] at h <;> cases h
      rfl
  obtain ⟨x, hx, hkeep⟩ := decryptBuffer_registers P d s
  refine ⟨x, s.sdec1, s.senc2, s.sdec3, ht.trans hx, fun hn => hkeep fun ⟨hm, hc⟩ => hn ⟨?_, hc⟩, fun _ => ⟨rfl, rfl, rfl⟩⟩
  rcases paths s hk with hl' | ⟨-, hm'⟩ | ⟨-, -, hcbc⟩
  · rw [hl] at hl'; cases hl'
  · exact absurd hm' hm
  · exact hcbc

/-- What a command that ends with `OK` does to the registers, command by command: the "written by" column of R21 with the
conditions under which the data commands write. -/
inductive Effect (s : State) : Instr → State → Prop where
  | config (arg : Byte) : Effect s (.config arg) (s.construct (modeOfArg arg))
  | shortKey (raw : Bytes) {k : Block} (derived : deriveSubKeys raw = .single k) : Effect s (.setkey raw) (s.loadSingle k)
  | longKey (raw : Bytes) {a b c : Block} (derived : deriveSubKeys raw = .triple a b c) :
      Effect s (.setkey raw) (s.loadTriple a b c)
  | setiv (iv : Bytes) (eight : iv.length = 8) : Effect s (.setiv iv) (s.loadIv (blockOf iv))
  | enpad : Effect s .enpad (s.setPaden true)
  | dispad : Effect s .dispad (s.setPaden false)
  | encont : Effect s .encont (s.setConten true)
  | discont : Effect s .discont (s.setConten false).rewind
  | encrypt (data : Bytes) {e a b c : Block} (key : s.keyclass ≠ .none)
      (slot : ¬(cbcMode s = true ∧ s.conten = true) → e = s.enciv)
      (stages : legacyActive s = false → a = s.senc1 ∧ b = s.sdec2 ∧ c = s.senc3) :
      Effect s (.encrypt data) (s.setEncryptChain e a b c)
  | decrypt (data : Bytes) {x a b c : Block} (key : s.keyclass ≠ .none)
      (slot : ¬(cbcMode s = true ∧ s.conten = true) → x = s.deciv)
      (stages : legacyActive s = false → a = s.sdec1 ∧ b = s.senc2 ∧ c = s.sdec3) :
      Effect s (.decrypt data) (s.setDecryptChain x a b c)
  | bkhint (hint : Bytes) : Effect s (.bkhint hint) s

/-- The derived sub-keys, of a short key or of a long one, are loaded (R101). -/
theorem loadKey_effect (raw : Bytes) (s : State) : Effect s (.setkey raw) (loadKey (deriveSubKeys raw) s) := by
  cases hk : deriveSubKeys raw with
  | single k => exact .shortKey raw hk
  | triple a b c => exact .longKey raw hk

/-- The rule of `SETIV` ends with `OK` on 8 bytes only (R121). -/
theorem setivBody_ok {iv out : Bytes} {s t : State} (h : setivBody iv s = .ok (t, out)) :
    iv.length = 8 ∧ t = s.loadIv (blockOf iv) ∧ out = [] := by
  by_cases hl : iv.length = 8
  · rw [setivBody_of_eight hl] at h; cases h; exact ⟨hl, rfl, rfl⟩
  · rw [setivBody_of_other hl] at h; cases h

/-- The one error of `SETIV` (R164). -/
theorem setivBody_error {iv : Bytes} {s : State} {e : CmdError} (h : setivBody iv s = .error e) :
    e = .ivlen ∧ iv.length ≠ 8 := by
  by_cases hl : iv.length = 8
  · rw [setivBody_of_eight hl] at h; cases h
  · rw [setivBody_of_other hl] at h; cases h; exact ⟨rfl, hl⟩

/-- The rule of every command has the effect its row names. -/
theorem bodyOf_effect {i : Instr} {s t : State} {out : Bytes} (h : bodyOf i s = .ok (t, out)) : Effect s i t := by
  cases i with
  | config arg => cases h; exact .config arg
  | setkey raw => cases h; exact loadKey_effect raw s
  | setiv iv =>
    obtain ⟨hl, rfl, -⟩ := setivBody_ok h
    exact .setiv iv hl
  | enpad => cases h; exact .enpad
  | dispad => cases h; exact .dispad
  | encont => cases h; exact .encont
  | discont => cases h; exact .discont
  | encrypt data =>
    obtain ⟨hk, e, a, b, c, rfl, he, hs⟩ := encryptBody_ok h
    exact .encrypt data hk he hs
  | decrypt data =>
    obtain ⟨hk, x, a, b, c, rfl, hx, hs⟩ := decryptBody_ok h
    exact .decrypt data hk hx hs
  | bkhint hint => cases h; exact .bkhint hint

/-- All that executing a command can be: its effect with an `OK` response, or an error that changes no register (R160). -/
theorem exec_cases (i : Instr) (s : State) :
    (∃ t out, bodyOf i s = .ok (t, out) ∧ exec i s = .next (t.finish out)) ∨
    (∃ e, bodyOf i s = .error e ∧ exec i s = .next (s.raiseError e)) := by
  rw [exec_eq_complete]
  exact complete_cases s (bodyOf i s)

section Writers

variable {i : Instr} {s t : State}

/-- The "written by" column of R21 for the control fields, the sub-keys and the IVs. -/
theorem Effect.writers (h : Effect s i t) :
    (t.mode ≠ s.mode → ∃ a, i = .config a) ∧
    (t.paden ≠ s.paden → (∃ a, i = .config a) ∨ i = .enpad ∨ i = .dispad) ∧
    (t.conten ≠ s.conten → (∃ a, i = .config a) ∨ i = .encont ∨ i = .discont) ∧
    (t.keyclass ≠ s.keyclass → (∃ a, i = .config a) ∨ ∃ k, i = .setkey k) ∧
    (t.keyclass ≠ .none → ¬(t.k1 = s.k1 ∧ t.k2 = s.k2 ∧ t.k3 = s.k3) → ∃ k, i = .setkey k) ∧
    (t.baseiv ≠ s.baseiv → (∃ a, i = .config a) ∨ ∃ v, i = .setiv v) ∧
    (t.enciv ≠ s.enciv → (∃ a, i = .config a) ∨ (∃ v, i = .setiv v) ∨ i = .discont ∨ ∃ d, i = .encrypt d) ∧
    (t.deciv ≠ s.deciv → (∃ a, i = .config a) ∨ (∃ v, i = .setiv v) ∨ i = .discont ∨ ∃ d, i = .decrypt d) := by
  cases h with
  | encrypt data key slot stages => simp [State.setEncryptChain]
  | decrypt data key slot stages => simp [State.setDecryptChain]
  | _ => simp

/-- The "written by" column of R21 for the stage registers: `CONFIG`, and the data commands when legacy-active. -/
theorem Effect.stage_writers (h : Effect s i t) (n : Stage) (hne : t.senc n ≠ s.senc n ∨ t.sdec n ≠ s.sdec n) :
    (∃ a, i = .config a) ∨ (legacyActive s = true ∧ ((∃ d, i = .encrypt d) ∨ ∃ d, i = .decrypt d)) := by
  cases h with
  | config arg => exact .inl ⟨arg, rfl⟩
  | encrypt data key slot stages =>
    cases hl : legacyActive s with
    | true => exact .inr ⟨rfl, .inl ⟨data, rfl⟩⟩
    | false =>
      obtain ⟨rfl, rfl, rfl⟩ := stages hl
      exact hne.elim (absurd rfl) (absurd rfl)
  | decrypt data key slot stages =>
    cases hl : legacyActive s with
    | true => exact .inr ⟨rfl, .inr ⟨data, rfl⟩⟩
    | false =>
      obtain ⟨rfl, rfl, rfl⟩ := stages hl
      exact hne.elim (absurd rfl) (absurd rfl)
  | _ => exact hne.elim (absurd rfl) (absurd rfl)

/-- No rule of a command touches the count or the host's events: the end of the command does the counting (R22). -/
theorem Effect.host (h : Effect s i t) : t.cmdidx = s.cmdidx ∧ t.pending = s.pending := by
  cases h <;> exact ⟨rfl, rfl⟩

/-- Only a data command has an output (R51). -/
theorem bodyOf_output {out : Bytes} (h : bodyOf i s = .ok (t, out)) (ho : out ≠ []) :
    (∃ d, i = .encrypt d) ∨ ∃ d, i = .decrypt d := by
  cases i with
  | encrypt data => exact .inl ⟨data, rfl⟩
  | decrypt data => exact .inr ⟨data, rfl⟩
  | setiv iv =>
    obtain ⟨-, -, rfl⟩ := setivBody_ok h
    exact absurd rfl ho
  | _ => cases h; exact absurd rfl ho

/-- Why a `DECRYPT` can fail (R163, R165). -/
theorem decryptBody_error {P : Params} {d : Bytes} {e : CmdError} (h : decryptBody P d s = .error e) :
    (e = .nokey ∧ s.keyclass = .none) ∨
    (e = .pad ∧ s.keyclass ≠ .none ∧ paddingApplies s = true ∧ unpad P.padPolicy (decryptBuffer P d s).2 = .error .pad) := by
  by_cases hk : s.keyclass = .none
  · rw [decryptBody_nokey _ _ hk] at h; cases h; exact .inl ⟨rfl, hk⟩
  cases hl : legacyActive s with
  | true => rw [decryptBody_legacy _ _ hl] at h; cases h
  | false =>
    cases hp : s.paden with
    | false => rw [decryptBody_unpadded _ _ hk hl hp] at h; cases h
    | true =>
      rw [decryptBody_padded _ _ hk hl hp] at h
      cases hu : unpad P.padPolicy (decryptBuffer P d s).2 with
      | ok out => rw [hu] at h; cases h
      | error e' =>
        rw [hu] at h; cases h
        obtain rfl := unpad_error hu
        exact .inr ⟨rfl, hk, (paddingApplies_of_not_legacy hl).trans hp, rfl⟩

/-- A legal command never ends with `ERR_ILLEGAL` (R161, R162). -/
theorem bodyOf_error_ne_illegal {e : CmdError} (h : bodyOf i s = .error e) : e ≠ .illegal := by
  cases i with
  | encrypt data => rw [(encryptBody_error h).1]; decide
  | decrypt data => rcases decryptBody_error h with ⟨rfl, -⟩ | ⟨rfl, -⟩ <;> decide
  | setiv iv => rw [(setivBody_error h).1]; decide
  | _ => cases h

end Writers

theorem code_of_ne_illegal {e : CmdError} (h : e ≠ .illegal) : e.code ∈ [(0x00 : Byte), 0x02, 0x03, 0x04] := by
  cases e with
  | illegal => exact absurd rfl h
  | nokey => decide
  | ivlen => decide
  | pad => decide

/-! ## Invariants of the registers -/

/-- A property of the registers that holds at reset and that the effect of every command keeps is kept by every step. -/
theorem step_keeps {I : State → Prop} (hreg : ∀ s, I (registers s) ↔ I s) (hreset : I State.reset)
    (heffect : ∀ i s t, Effect s i t → I s → I t) {s t : State} (hs : I s) (h : step s = .next t) : I t := by
  have hpend (es) : I (s.setPending es) := by rwa [← hreg, registers_setPending, hreg]
  rcases step_cases s with ⟨-, hidle⟩ | ⟨a, es, -, hres⟩ | ⟨c, es, e, -, -, hill⟩ | ⟨c, es, i, -, -, hexec⟩
  · rw [hidle] at h; cases h; exact hs
  · rw [hres] at h; cases h; rwa [← hreg, registers_resetEvent, hreg]
  · rw [hill] at h; cases h; rw [← hreg, registers_raiseError, hreg]; exact hpend es
  · rw [hexec] at h
    rcases exec_cases i (s.setPending es) with ⟨u, out, hb, hn⟩ | ⟨e, -, hn⟩
    · rw [hn] at h; cases h; rw [← hreg, registers_finish, hreg]; exact heffect _ _ _ (bodyOf_effect hb) (hpend es)
    · rw [hn] at h; cases h; rw [← hreg, registers_raiseError, hreg]; exact hpend es

/-- R124, command by command: `CONFIG`, `SETIV` and `DISCONT` establish the equalities, `ENCONT` makes the condition false, and a data
command writes its slot only with `CONTEN = 1`. -/
theorem chainInv_effect {i : Instr} {s t : State} (h : Effect s i t) (hs : ChainInv s) : ChainInv t := by
  cases h with
  | config arg => exact fun _ => ⟨rfl, rfl⟩
  | setiv iv eight => exact fun _ => ⟨rfl, rfl⟩
  | discont => exact fun _ => ⟨rfl, rfl⟩
  | encont => intro hc; cases hc
  | encrypt data key slot stages =>
    intro (hc : s.conten = false)
    obtain rfl := slot (by simp [hc])
    exact hs hc
  | decrypt data key slot stages =>
    intro (hc : s.conten = false)
    obtain rfl := slot (by simp [hc])
    exact hs hc
  | _ => exact hs

theorem legacyActive_eq_false_of_mode {s : State} (hm : s.mode ≠ .legacy) : legacyActive s = false := by
  simp [legacyActive, hm]

/-- R39 (d), command by command: `CONFIG` zeroes the stage registers, and only a legacy-active data command writes them
afterwards, in a state of which the invariant asks nothing. -/
theorem stageZeroInv_effect {i : Instr} {s t : State} (h : Effect s i t) (hs : StageZeroInv s) : StageZeroInv t := by
  cases h with
  | config arg => exact fun _ => ⟨rfl, rfl, rfl, rfl, rfl, rfl⟩
  | shortKey raw derived => rintro (hm | hk); exacts [hs (.inl hm), nomatch hk]
  | longKey raw derived => rintro (hm | hk); exacts [hs (.inl hm), nomatch hk]
  | encrypt data key slot stages =>
    rintro (hm | hk)
    · obtain ⟨rfl, rfl, rfl⟩ := stages (legacyActive_eq_false_of_mode hm)
      exact hs (.inl hm)
    · exact absurd hk key
  | decrypt data key slot stages =>
    rintro (hm | hk)
    · obtain ⟨rfl, rfl, rfl⟩ := stages (legacyActive_eq_false_of_mode hm)
      exact hs (.inl hm)
    · exact absurd hk key
  | _ => exact hs

/-! ## The data commands from two states that agree on what they read -/

/-- Two states agree on the configuration that the data commands read: the control fields, the base IV, and the sub-keys that
the key class makes readable (R23). -/
structure ConfigAgree (s s' : State) : Prop where
  mode : s'.mode = s.mode
  paden : s'.paden = s.paden
  conten : s'.conten = s.conten
  baseiv : s'.baseiv = s.baseiv
  keyclass : s'.keyclass = s.keyclass
  k1 : s.keyclass ≠ .none → s'.k1 = s.k1
  k2k3 : s.keyclass = .triple → s'.k2 = s.k2 ∧ s'.k3 = s.k3

/-- Two states agree on all that `ENCRYPT` reads (R120, R133, R152). -/
structure EncryptAgree (s s' : State) : Prop extends ConfigAgree s s' where
  enciv : s'.enciv = s.enciv
  senc1 : s'.senc1 = s.senc1
  sdec2 : s'.sdec2 = s.sdec2
  senc3 : s'.senc3 = s.senc3

/-- Two states agree on all that `DECRYPT` reads (R120, R136, R153). -/
structure DecryptAgree (s s' : State) : Prop extends ConfigAgree s s' where
  deciv : s'.deciv = s.deciv
  sdec1 : s'.sdec1 = s.sdec1
  senc2 : s'.senc2 = s.senc2
  sdec3 : s'.sdec3 = s.sdec3

section Agree

variable {s s' : State}

theorem ConfigAgree.refl (s : State) : ConfigAgree s s :=
  ⟨rfl, rfl, rfl, rfl, rfl, fun _ => rfl, fun _ => ⟨rfl, rfl⟩⟩

theorem EncryptAgree.refl (s : State) : EncryptAgree s s := ⟨.refl s, rfl, rfl, rfl, rfl⟩

theorem DecryptAgree.refl (s : State) : DecryptAgree s s := ⟨.refl s, rfl, rfl, rfl, rfl⟩

theorem EncryptAgree.of_count (s : State) (n : Nat) (q : Option Response) :
    EncryptAgree s { s with cmdidx := n, response := q } :=
  ⟨⟨rfl, rfl, rfl, rfl, rfl, fun _ => rfl, fun _ => ⟨rfl, rfl⟩⟩, rfl, rfl, rfl, rfl⟩

theorem DecryptAgree.of_count (s : State) (n : Nat) (q : Option Response) :
    DecryptAgree s { s with cmdidx := n, response := q } :=
  ⟨⟨rfl, rfl, rfl, rfl, rfl, fun _ => rfl, fun _ => ⟨rfl, rfl⟩⟩, rfl, rfl, rfl, rfl⟩

theorem ConfigAgree.legacyActive_eq (h : ConfigAgree s s') : legacyActive s' = legacyActive s := by
  simp [legacyActive, h.mode, h.keyclass]

theorem ConfigAgree.encryptInput_eq (h : ConfigAgree s s') (d : Bytes) : encryptInput s' d = encryptInput s d := by
  simp [encryptInput, paddingApplies, h.paden, h.legacyActive_eq]

/-- The block transform of `ENCRYPT` reads the readable sub-keys only. -/
theorem ConfigAgree.encryptBlock_eq (h : ConfigAgree s s') (P : Params) : encryptBlock P s' = encryptBlock P s := by
  funext p
  cases hk : s.keyclass with
  | none => rw [encryptBlock_none P hk, encryptBlock_none P (h.keyclass.trans hk)]
  | single => rw [encryptBlock_single P hk, encryptBlock_single P (h.keyclass.trans hk), h.k1 (by simp [hk])]
  | triple =>
    obtain ⟨h2, h3⟩ := h.k2k3 hk
    rw [encryptBlock_triple P hk, encryptBlock_triple P (h.keyclass.trans hk), h.k1 (by simp [hk]), h2, h3]

/-- The block transform of `DECRYPT` reads the readable sub-keys only. -/
theorem ConfigAgree.decryptBlock_eq (h : ConfigAgree s s') (P : Params) : decryptBlock P s' = decryptBlock P s := by
  funext c
  cases hk : s.keyclass with
  | none => rw [decryptBlock_none P hk, decryptBlock_none P (h.keyclass.trans hk)]
  | single => rw [decryptBlock_single P hk, decryptBlock_single P (h.keyclass.trans hk), h.k1 (by simp [hk])]
  | triple =>
    obtain ⟨h2, h3⟩ := h.k2k3 hk
    rw [decryptBlock_triple P hk, decryptBlock_triple P (h.keyclass.trans hk), h.k1 (by simp [hk]), h2, h3]

theorem ConfigAgree.triple_keys (h : ConfigAgree s s') (hl : legacyActive s = true) :
    s'.k1 = s.k1 ∧ s'.k2 = s.k2 ∧ s'.k3 = s.k3 := by
  obtain ⟨-, hk⟩ := (legacyActive_iff s).mp hl
  exact ⟨h.k1 (by simp [hk]), h.k2k3 hk⟩

/-- Taking over the chain the state already has changes nothing. -/
theorem EncryptAgree.takeEncryptChain_self (h : EncryptAgree s s') : s'.takeEncryptChain s = s' := by
  simp only [State.takeEncryptChain, State.setEncryptChain, ← h.enciv, ← h.senc1, ← h.sdec2, ← h.senc3]

/-- Taking over the chain the state already has changes nothing. -/
theorem DecryptAgree.takeDecryptChain_self (h : DecryptAgree s s') : s'.takeDecryptChain s = s' := by
  simp only [State.takeDecryptChain, State.setDecryptChain, ← h.deciv, ← h.sdec1, ← h.senc2, ← h.sdec3]

theorem EncryptAgree.storeEnciv_eq (h : EncryptAgree s s') (v : Block) :
    storeEnciv s' v = s'.takeEncryptChain (storeEnciv s v) := by
  cases hc : s.conten with
  | false => simp only [storeEnciv, h.conten, hc, Bool.false_eq_true, if_false, h.takeEncryptChain_self]
  | true =>
    simp [storeEnciv, h.conten, hc, State.takeEncryptChain, State.setEncryptChain, State.setEnciv, h.senc1, h.sdec2, h.senc3]

theorem DecryptAgree.storeDeciv_eq (h : DecryptAgree s s') (v : Block) :
    storeDeciv s' v = s'.takeDecryptChain (storeDeciv s v) := by
  cases hc : s.conten with
  | false => simp only [storeDeciv, h.conten, hc, Bool.false_eq_true, if_false, h.takeDecryptChain_self]
  | true =>
    simp [storeDeciv, h.conten, hc, State.takeDecryptChain, State.setDecryptChain, State.setDeciv, h.sdec1, h.senc2, h.sdec3]

theorem EncryptAgree.cbcEncrypt_eq (h : EncryptAgree s s') (P : Params) (m : List Block) :
    cbcEncrypt P s' m = cbcEncrypt P s m := by
  simp [cbcEncrypt, encStart, h.encryptBlock_eq, h.conten, h.enciv, h.baseiv]

theorem DecryptAgree.cbcDecrypt_eq (h : DecryptAgree s s') (P : Params) (m : List Block) :
    cbcDecrypt P s' m = cbcDecrypt P s m := by
  simp [cbcDecrypt, decStart, h.decryptBlock_eq, h.conten, h.deciv, h.baseiv]

/-- The cascade forwards: the same output and the same writes from both states (R152). -/
theorem EncryptAgree.legacyEncrypt_eq (h : EncryptAgree s s') (P : Params) (d : Bytes) (hl : legacyActive s = true) :
    legacyEncrypt P d s' = (s'.takeEncryptChain (legacyEncrypt P d s).1, (legacyEncrypt P d s).2) := by
  obtain ⟨h1, h2, h3⟩ := h.triple_keys hl
  simp only [legacyEncrypt, legacyEncryptBlocks_eq, State.takeEncryptChain, State.setEncryptChain, h1, h2, h3, h.senc1,
    h.sdec2, h.senc3, h.enciv]

/-- The cascade backwards: the same output and the same writes from both states (R153). -/
theorem DecryptAgree.legacyDecrypt_eq (h : DecryptAgree s s') (P : Params) (d : Bytes) (hl : legacyActive s = true) :
    legacyDecrypt P d s' = (s'.takeDecryptChain (legacyDecrypt P d s).1, (legacyDecrypt P d s).2) := by
  obtain ⟨h1, h2, h3⟩ := h.triple_keys hl
  simp only [legacyDecrypt, legacyDecryptBlocks_eq, State.takeDecryptChain, State.setDecryptChain, h1, h2, h3, h.sdec1,
    h.senc2, h.sdec3, h.deciv]

/-- The rule of `ENCRYPT`, path by path: the same answer and the same writes from both states. -/
theorem EncryptAgree.encryptBody_eq (h : EncryptAgree s s') (P : Params) (d : Bytes) :
    encryptBody P d s' = (encryptBody P d s).map fun r => (s'.takeEncryptChain r.1, r.2) := by
  by_cases hk : s.keyclass = .none
  · rw [encryptBody_nokey P d hk, encryptBody_nokey P d (h.keyclass.trans hk)]; rfl
  have hk' : s'.keyclass ≠ .none := by rwa [h.keyclass]
  rcases paths s hk with hl | ⟨-, hm⟩ | ⟨hl, hm, -⟩
  · rw [encryptBody_legacy P d hl, encryptBody_legacy P d (h.legacyActive_eq.trans hl), h.legacyEncrypt_eq P d hl]; rfl
  · rw [encryptBody_ecb P d hk hm, encryptBody_ecb P d hk' (h.mode.trans hm), h.encryptInput_eq, ecbEncrypt,
      h.encryptBlock_eq, Except.map, h.takeEncryptChain_self, ecbEncrypt]
  · rw [encryptBody_cbc P d hk hl hm, encryptBody_cbc P d hk' (h.legacyActive_eq.trans hl) (by rwa [h.mode]),
      h.encryptInput_eq, h.cbcEncrypt_eq, h.storeEnciv_eq]; rfl

/-- The buffer of a `DECRYPT` outside the cascade, before `unpad`: the same, with the same writes, from both states. -/
theorem DecryptAgree.decryptBuffer_eq (h : DecryptAgree s s') (P : Params) (d : Bytes) :
    decryptBuffer P d s' = (s'.takeDecryptChain (decryptBuffer P d s).1, (decryptBuffer P d s).2) := by
  by_cases hm : s.mode = .ecb
  · rw [decryptBuffer_ecb P d hm, decryptBuffer_ecb P d (h.mode.trans hm), h.takeDecryptChain_self, ecbDecrypt,
      h.decryptBlock_eq, ecbDecrypt]
  · rw [decryptBuffer_cbc P d hm, decryptBuffer_cbc P d (by rwa [h.mode]), h.cbcDecrypt_eq, h.storeDeciv_eq]

/-- The rule of `DECRYPT`, path by path: the same answer and the same writes from both states. -/
theorem DecryptAgree.decryptBody_eq (h : DecryptAgree s s') (P : Params) (d : Bytes) :
    decryptBody P d s' = (decryptBody P d s).map fun r => (s'.takeDecryptChain r.1, r.2) := by
  by_cases hk : s.keyclass = .none
  · rw [decryptBody_nokey P d hk, decryptBody_nokey P d (h.keyclass.trans hk)]; rfl
  have hk' : s'.keyclass ≠ .none := by rwa [h.keyclass]
  cases hl : legacyActive s with
  | true =>
    rw [decryptBody_legacy P d hl, decryptBody_legacy P d (h.legacyActive_eq.trans hl), h.legacyDecrypt_eq P d hl]; rfl
  | false =>
    have hl' := h.legacyActive_eq.trans hl
    cases hp : s.paden with
    | false =>
      rw [decryptBody_unpadded P d hk hl hp, decryptBody_unpadded P d hk' hl' (h.paden.trans hp), h.decryptBuffer_eq]; rfl
    | true =>
      rw [decryptBody_padded P d hk hl hp, decryptBody_padded P d hk' hl' (h.paden.trans hp), h.decryptBuffer_eq]
      cases unpad P.padPolicy (decryptBuffer P d s).2 <;> rfl

end Agree

/-- `ENCRYPT` gives the same response and writes the same values from all states that agree on what it reads. -/
theorem exec_encrypt_agree (d : Bytes) (s : State) : ∃ t r, ∀ s', EncryptAgree s s' →
    exec (.encrypt d) s' = .next ((s'.takeEncryptChain t).respond r) := by
  rcases exec_cases (.encrypt d) s with ⟨t, out, hb, -⟩ | ⟨e, hb, -⟩ <;> rw [bodyOf] at hb
  · exact ⟨t, ⟨statusOk, out⟩, fun s' h => by rw [exec_eq_complete, bodyOf, h.encryptBody_eq,
      hb, Except.map, complete_ok, State.finish_eq_respond]⟩
  · refine ⟨s, ⟨e.code, []⟩, fun s' h => ?_⟩
    rw [exec_eq_complete, bodyOf, h.encryptBody_eq, hb, Except.map, complete_error,
      State.raiseError_eq_respond, h.takeEncryptChain_self]

/-- `DECRYPT` gives the same response and writes the same values from all states that agree on what it reads. -/
theorem exec_decrypt_agree (d : Bytes) (s : State) : ∃ t r, ∀ s', DecryptAgree s s' →
    exec (.decrypt d) s' = .next ((s'.takeDecryptChain t).respond r) := by
  rcases exec_cases (.decrypt d) s with ⟨t, out, hb, -⟩ | ⟨e, hb, -⟩ <;> rw [bodyOf] at hb
  · exact ⟨t, ⟨statusOk, out⟩, fun s' h => by rw [exec_eq_complete, bodyOf, h.decryptBody_eq,
      hb, Except.map, complete_ok, State.finish_eq_respond]⟩
  · refine ⟨s, ⟨e.code, []⟩, fun s' h => ?_⟩
    rw [exec_eq_complete, bodyOf, h.decryptBody_eq, hb, Except.map, complete_error,
      State.raiseError_eq_respond, h.takeDecryptChain_self]

/-- What a `DECRYPT` leaves differs from what it found in nothing that `ENCRYPT` reads. -/
theorem encryptAgree_of_decrypt (s t : State) (r : Response) :
    EncryptAgree s ((s.takeDecryptChain t).respond r) :=
  ⟨⟨rfl, rfl, rfl, rfl, rfl, fun _ => rfl, fun _ => ⟨rfl, rfl⟩⟩, rfl, rfl, rfl, rfl⟩

/-- What an `ENCRYPT` leaves differs from what it found in nothing that `DECRYPT` reads. -/
theorem decryptAgree_of_encrypt (s t : State) (r : Response) :
    DecryptAgree s ((s.takeEncryptChain t).respond r) :=
  ⟨⟨rfl, rfl, rfl, rfl, rfl, fun _ => rfl, fun _ => ⟨rfl, rfl⟩⟩, rfl, rfl, rfl, rfl⟩

/-! ## The key and IV commands, one equation per outcome -/

/-- `SETKEY` loads the same key from every state (R101). -/
theorem exec_setkey_uniform (raw : Bytes) :
    (∃ k, ∀ s, exec (.setkey raw) s = .next ((s.loadSingle k).finish [])) ∨
    (∃ a b c, ∀ s, exec (.setkey raw) s = .next ((s.loadTriple a b c).finish [])) := by
  cases hk : deriveSubKeys raw with
  | single k => exact .inl ⟨k, fun s => by rw [exec_eq_complete, bodyOf, hk]; rfl⟩
  | triple a b c => exact .inr ⟨a, b, c, fun s => by rw [exec_eq_complete, bodyOf, hk]; rfl⟩

/-- `SETIV` loads the same IV from every state, or raises `ERR_IVLEN` in every state (R121). -/
theorem exec_setiv_uniform (iv : Bytes) :
    (∃ v, ∀ s, exec (.setiv iv) s = .next ((s.loadIv v).finish [])) ∨
    (∀ s, exec (.setiv iv) s = .next (s.raiseError .ivlen)) := by
  by_cases h : iv.length = 8
  · exact .inl ⟨blockOf iv, fun s => by rw [exec_eq_complete, bodyOf, setivBody_of_eight h]; rfl⟩
  · exact .inr fun s => by rw [exec_eq_complete, bodyOf, setivBody_of_other h]; rfl

/-! ## The readable registers -/

section Readable

variable (s : State)

/-- The readable registers as one update of the state, the sub-keys by key class (R23). -/
theorem readableRegisters_eq : readableRegisters s =
    { registers s with
      k1 := if s.keyclass = .none then Block.zeros else s.k1
      k2 := if s.keyclass = .triple then s.k2 else Block.zeros
      k3 := if s.keyclass = .triple then s.k3 else Block.zeros } := by
  cases h : s.keyclass <;> simp [readableRegisters, registers, h]

@[simp] theorem readableRegisters_respond (r : Response) : readableRegisters (s.respond r) = readableRegisters s := rfl

@[simp] theorem readableRegisters_finish (out : Bytes) : readableRegisters (s.finish out) = readableRegisters s := rfl

@[simp] theorem readableRegisters_raiseError (e : CmdError) : readableRegisters (s.raiseError e) = readableRegisters s := rfl

theorem readableRegisters_construct (m : Mode) :
    readableRegisters (s.construct m) = { State.reset with mode := m } := rfl

theorem readableRegisters_loadSingle (k : Block) : readableRegisters (s.loadSingle k) =
    { (readableRegisters s).loadSingle k with k2 := Block.zeros, k3 := Block.zeros } := by
  simp only [readableRegisters_eq]; rfl

theorem readableRegisters_loadTriple (a b c : Block) :
    readableRegisters (s.loadTriple a b c) = (readableRegisters s).loadTriple a b c := by
  simp only [readableRegisters_eq]; rfl

theorem readableRegisters_loadIv (v : Block) : readableRegisters (s.loadIv v) = (readableRegisters s).loadIv v := by
  simp only [readableRegisters_eq]; rfl

theorem readableRegisters_setPaden (v : Bool) : readableRegisters (s.setPaden v) = (readableRegisters s).setPaden v := by
  simp only [readableRegisters_eq]; rfl

theorem readableRegisters_setConten (v : Bool) :
    readableRegisters (s.setConten v) = (readableRegisters s).setConten v := by
  simp only [readableRegisters_eq]; rfl

theorem readableRegisters_rewind : readableRegisters s.rewind = (readableRegisters s).rewind := by
  simp only [readableRegisters_eq]; rfl

theorem readableRegisters_takeEncryptChain (t : State) :
    readableRegisters (s.takeEncryptChain t) = (readableRegisters s).takeEncryptChain t := by
  simp only [readableRegisters_eq]; rfl

theorem readableRegisters_takeDecryptChain (t : State) :
    readableRegisters (s.takeDecryptChain t) = (readableRegisters s).takeDecryptChain t := by
  simp only [readableRegisters_eq]; rfl

end Readable

/-- States with the same readable registers agree on all that either data command reads. -/
theorem agree_of_readableRegisters_eq {s s' : State} (h : readableRegisters s = readableRegisters s') :
    EncryptAgree s s' ∧ DecryptAgree s s' := by
  rw [readableRegisters_eq, readableRegisters_eq, State.mk.injEq] at h
  obtain ⟨hmode, hpaden, hconten, hclass, h1, h2, h3, hbase, henciv, hdeciv, he1, he2, he3, hd1, hd2, hd3, -⟩ := h
  have hclass : s'.keyclass = s.keyclass := hclass.symm
  have hconfig : ConfigAgree s s' :=
    { mode := hmode.symm, paden := hpaden.symm, conten := hconten.symm, baseiv := hbase.symm, keyclass := hclass
      k1 := fun hk => by simpa [hclass, hk] using h1.symm
      k2k3 := fun hk => ⟨by simpa [hclass, hk] using h2.symm, by simpa [hclass, hk] using h3.symm⟩ }
  exact ⟨⟨hconfig, henciv.symm, he1.symm, hd2.symm, he3.symm⟩, ⟨hconfig, hdeciv.symm, hd1.symm, he2.symm, hd3.symm⟩⟩

/-! ## Reset and idle steps -/

theorem step_reset {s : State} {a : Option Command} {es : List HostEvent} (h : s.pending = .reset a :: es) :
    step s = .next (s.setPending es).resetEvent := by
  simp [step, serve, h, runEvent]

theorem step_idle {s : State} (h : s.pending = []) : step s = .next s := by
  simp [step, serve, h, idle]

theorem stagesZero_reset : StagesZero State.reset := ⟨rfl, rfl, rfl, rfl, rfl, rfl⟩

/-! ## The control register -/

/-- The fields of a 6-bit register put together as R28 puts `CTRL` together. -/
theorem ctrlBits_fields : ∀ (k : BitVec 2) (c p : Bool) (m : BitVec 2),
    let v := k ++ BitVec.ofBool c ++ BitVec.ofBool p ++ m
    v.extractLsb' 0 2 = m ∧ v.getLsbD 2 = p ∧ v.getLsbD 3 = c ∧ v.extractLsb' 4 2 = k := by
  decide

theorem ctrl_fields (s : State) : (ctrl s).extractLsb' 0 2 = s.mode.code ∧ (ctrl s).getLsbD 2 = s.paden ∧
    (ctrl s).getLsbD 3 = s.conten ∧ (ctrl s).extractLsb' 4 2 = s.keyclass.code :=
  ctrlBits_fields s.keyclass.code s.conten s.paden s.mode.code

theorem Mode.code_ne_zero (m : Mode) : m.code ≠ 0 := by cases m <;> decide

theorem KeyClass.code_ne_three (k : KeyClass) : k.code ≠ 3 := by cases k <;> decide

end Sys2Proof.Machine

open Sys2Proof Sys2Proof.Machine

/-! ## The obligations -/

/-- Settles O55: the chain invariant speaks of registers only, and the effect of every command keeps it. -/
theorem chainInvariantKept : Obligations.ChainInvariantKept := fun _ _ hs h =>
  step_keeps (I := ChainInv) (fun _ => Iff.rfl) (fun _ => ⟨rfl, rfl⟩) (fun _ _ _ => chainInv_effect) hs h

/-- Settles O57: the stage zero invariant speaks of registers only, and the effect of every command keeps it. -/
theorem stageZerosKept : Obligations.StageZerosKept := fun _ _ hs h =>
  step_keeps (I := StageZeroInv) (fun _ => Iff.rfl) (fun _ => ⟨rfl, rfl, rfl, rfl, rfl, rfl⟩)
    (fun _ _ _ => stageZeroInv_effect) hs h

/-- Settles O58: all three read off the reset values. -/
theorem invariantsAtReset : Obligations.InvariantsAtReset :=
  ⟨fun _ => ⟨rfl, rfl⟩, ⟨rfl, rfl⟩, fun _ => ⟨rfl, rfl, rfl, rfl, rfl, rfl⟩⟩

/-- Settles O44: what either command writes, the other does not read, so each acts from the state the other left as from `s`. -/
theorem directionsIndependent : Obligations.DirectionsIndependent := by
  intro d c s
  obtain ⟨te, re, henc⟩ := exec_encrypt_agree d s
  obtain ⟨td, rd, hdec⟩ := exec_decrypt_agree c s
  exact ⟨_, _, _, _, henc s (.refl s), hdec _ (decryptAgree_of_encrypt s ..), hdec s (.refl s),
    henc _ (encryptAgree_of_decrypt s ..), rfl, rfl, rfl⟩

/-- Settles O47: a failed command writes no register, and the effect of every other names what it writes. -/
theorem registersWrittenOnlyByTheirCommands : Obligations.RegistersWrittenOnlyByTheirCommands := by
  intro i s
  rcases exec_cases i s with ⟨t, out, hb, hn⟩ | ⟨e, -, hn⟩
  · have heff := bodyOf_effect hb
    obtain ⟨hmode, hpaden, hconten, hclass, hkeys, hbase, henciv, hdeciv⟩ := heff.writers
    exact ⟨_, hn, hmode, hpaden, hconten, hclass, hkeys, hbase, henciv, hdeciv, fun n => by simpa using heff.stage_writers n⟩
  · exact ⟨_, hn, by simp⟩

/-- Settles O48: `OK` with the output of the rule, or the code of an error that a legal command can raise. -/
theorem everyCommandCompletes : Obligations.EveryCommandCompletes := by
  intro i s
  rcases exec_cases i s with ⟨t, out, hb, hn⟩ | ⟨e, hb, hn⟩
  · obtain ⟨hcount, hpending⟩ := (bodyOf_effect hb).host
    exact ⟨_, _, hn, rfl, by simp [statusOk], congrArg (· + 1) hcount, hpending, fun ho => ⟨rfl, bodyOf_output hb ho⟩⟩
  · exact ⟨_, _, hn, rfl, code_of_ne_illegal (bodyOf_error_ne_illegal hb), rfl, rfl, fun ho => absurd rfl ho⟩

/-- Settles O52: `cmdidx` and the last response are outside what any command reads. -/
theorem countIsNotRead : Obligations.CountIsNotRead := by
  intro i s n q
  cases i with
  | setkey raw =>
    rcases exec_setkey_uniform raw with ⟨k, hk⟩ | ⟨a, b, c, hk⟩
    · exact ⟨_, hk s, hk _⟩
    · exact ⟨_, hk s, hk _⟩
  | setiv iv =>
    rcases exec_setiv_uniform iv with ⟨v, hv⟩ | hv
    · exact ⟨_, hv s, hv _⟩
    · exact ⟨_, hv s, hv _⟩
  | encrypt data =>
    obtain ⟨t, r, h⟩ := exec_encrypt_agree data s
    exact ⟨_, h s (.refl s), h _ (.of_count s n q)⟩
  | decrypt data =>
    obtain ⟨t, r, h⟩ := exec_decrypt_agree data s
    exact ⟨_, h s (.refl s), h _ (.of_count s n q)⟩
  | _ => exact ⟨_, rfl, rfl⟩

/-- Settles O53: the readable registers a command leaves are a function of those it found, and so is its response. -/
theorem unreadKeysInfluenceNothing : Obligations.UnreadKeysInfluenceNothing := by
  intro i s s' h
  obtain ⟨henc, hdec⟩ := agree_of_readableRegisters_eq h
  cases i with
  | config arg => exact ⟨_, _, rfl, rfl, rfl, by simp [readableRegisters_construct]⟩
  | setkey raw =>
    rcases exec_setkey_uniform raw with ⟨k, hk⟩ | ⟨a, b, c, hk⟩
    · exact ⟨_, _, hk s, hk s', rfl, by simp [readableRegisters_loadSingle, h]⟩
    · exact ⟨_, _, hk s, hk s', rfl, by simp [readableRegisters_loadTriple, h]⟩
  | setiv iv =>
    rcases exec_setiv_uniform iv with ⟨v, hv⟩ | hv
    · exact ⟨_, _, hv s, hv s', rfl, by simp [readableRegisters_loadIv, h]⟩
    · exact ⟨_, _, hv s, hv s', rfl, by simp [h]⟩
  | enpad => exact ⟨_, _, rfl, rfl, rfl, by simp [readableRegisters_setPaden, h]⟩
  | dispad => exact ⟨_, _, rfl, rfl, rfl, by simp [readableRegisters_setPaden, h]⟩
  | encont => exact ⟨_, _, rfl, rfl, rfl, by simp [readableRegisters_setConten, h]⟩
  | discont => exact ⟨_, _, rfl, rfl, rfl, by simp [readableRegisters_rewind, readableRegisters_setConten, h]⟩
  | encrypt data =>
    obtain ⟨t, r, ht⟩ := exec_encrypt_agree data s
    exact ⟨_, _, ht s (.refl s), ht s' henc, rfl, by simp [readableRegisters_takeEncryptChain, h]⟩
  | decrypt data =>
    obtain ⟨t, r, ht⟩ := exec_decrypt_agree data s
    exact ⟨_, _, ht s (.refl s), ht s' hdec, rfl, by simp [readableRegisters_takeDecryptChain, h]⟩
  | bkhint hint => exact ⟨_, _, rfl, rfl, rfl, by simp [h]⟩

/-- Settles O8: the step is the reset event on the state with the event taken. -/
theorem resetEventRestores : Obligations.ResetEventRestores := by
  intro s a es hp
  refine ⟨_, step_reset hp, rfl, rfl, rfl, rfl, rfl, rfl, rfl, stagesZero_reset, rfl, rfl, rfl, fun hes => step_idle ?_⟩
  simpa using hes

/-- Settles O9: the values of `State.reset`. -/
theorem resetValues : Obligations.ResetValues :=
  ⟨rfl, rfl, rfl, rfl, rfl, rfl, rfl, stagesZero_reset, rfl⟩

/-- Settles O10: the construction state of R90 in the selected mode, then the end of the command. -/
theorem configConstructs : Obligations.ConfigConstructs := fun _ _ =>
  ⟨_, rfl, rfl, rfl, rfl, rfl, rfl, rfl, rfl, stagesZero_reset, rfl, rfl, rfl⟩

/-- Settles O59: the four fields of `CTRL`, and the codes that no field takes. -/
theorem controlRegisterView : Obligations.ControlRegisterView := by
  refine ⟨⟨rfl, rfl, rfl, rfl, rfl, rfl⟩, fun s => ?_, rfl⟩
  obtain ⟨hmode, hpaden, hconten, hclass⟩ := ctrl_fields s
  refine ⟨?_, hpaden, hconten, ?_, hmode, hclass, hmode ▸ s.mode.code_ne_zero, hclass ▸ s.keyclass.code_ne_three⟩
  · rw [hmode]; cases s.mode <;> rfl
  · rw [hclass]; cases s.keyclass <;> rfl

end

section
/-! The host's side of the machine (`20_memory.md`): a step on a command that the host presents (R59, R70), and the primitive
calls behind a data command (R65), as many as its blocks times the calls of one block. -/

namespace Sys2Proof.Machine

/-! ## Steps on a presented command -/

/-- The step on a presented command is its transaction, on the state with the event taken (R59, R70). -/
theorem step_command {s : State} {c : Command} {es : List HostEvent} (h : s.pending = .command c :: es) :
    step s = runCommand c (s.setPending es) := by
  simp [step, serve, h, runEvent]

/-- The transaction of a legal command executes what was decoded (R81). -/
theorem runCommand_of_decode_ok {c : Command} {i : Instr} (h : decode c = .ok i) (s : State) :
    runCommand c s = exec i s := by
  simp [runCommand, h]

theorem decodeTableWord_eq_some {nbits w : Nat} {i : Instr} (h : decodeTableWord nbits w = some i) :
    decode (tableCommand nbits w) = .ok i := by
  unfold decodeTableWord at h
  split at h
  · cases h; assumption
  · cases h

@[simp] theorem State.pending_withFetchWord (s : State) (nbits w : Nat) :
    (s.withFetchWord nbits w).pending = .command (tableCommand nbits w) :: s.pending := rfl

@[simp] theorem State.setPending_withFetchWord (s : State) (nbits w : Nat) :
    (s.withFetchWord nbits w).setPending s.pending = s := rfl

/-! ## The calls of one block -/

/-- One call for a block under a short key, three under a long one (R65). -/
theorem length_encryptCalls {k : KeyClass} (hk : k ≠ .none) :
    (encryptCalls k).length = if k = .single then 1 else 3 := by
  cases k with
  | none => exact absurd rfl hk
  | single => rfl
  | triple => rfl

theorem length_decryptCalls {k : KeyClass} (hk : k ≠ .none) :
    (decryptCalls k).length = if k = .single then 1 else 3 := by
  cases k with
  | none => exact absurd rfl hk
  | single => rfl
  | triple => rfl

theorem runCalls_encryptCalls (P : Params) (s : State) (b : Block) :
    runCalls P s (encryptCalls s.keyclass) b = encryptBlock P s b := by
  cases hk : s.keyclass with
  | none => rw [encryptBlock_none P hk]; rfl
  | single => rw [encryptBlock_single P hk]; rfl
  | triple => rw [encryptBlock_triple P hk]; rfl

theorem runCalls_decryptCalls (P : Params) (s : State) (b : Block) :
    runCalls P s (decryptCalls s.keyclass) b = decryptBlock P s b := by
  cases hk : s.keyclass with
  | none => rw [decryptBlock_none P hk]; rfl
  | single => rw [decryptBlock_single P hk]; rfl
  | triple => rw [decryptBlock_triple P hk]; rfl

/-! ## The blocks of a data command -/

/-- In the cascade the payload is zero-extended and never padded (R155). -/
theorem encryptInput_of_legacyActive (d : Bytes) {s : State} (h : legacyActive s = true) :
    encryptInput s d = toBlocks (zext8 d) := by
  simp [encryptInput, paddingApplies, h]

/-- No stage of the cascade changes the number of blocks (R151, R152). -/
theorem length_legacyEncryptBlocks (P : Params) (m : List Block) (s : State) :
    (legacyEncryptBlocks P m s).2.length = m.length := by
  simp [legacyEncryptBlocks_eq]

/-- On every path `ENCRYPT` with a key puts out one block for each block it runs over (R134, R135, R152). -/
theorem encryptBody_blocks (P : Params) (d : Bytes) {s : State} (hk : s.keyclass ≠ .none) :
    ∃ t bs, encryptBody P d s = .ok (t, ofBlocks bs) ∧ bs.length = (encryptInput s d).length := by
  rcases paths s hk with hl | ⟨-, hm⟩ | ⟨hl, hm, -⟩
  · refine ⟨_, _, encryptBody_legacy P d hl, ?_⟩
    rw [length_legacyEncryptBlocks, encryptInput_of_legacyActive d hl]
  · exact ⟨_, _, encryptBody_ecb P d hk hm, List.length_map _⟩
  · exact ⟨_, _, encryptBody_cbc P d hk hl hm, length_cbcEncryptLoop _ _ _⟩

/-! ## The tally -/

theorem primCalls_encrypt (d : Bytes) {s : State} (hk : s.keyclass ≠ .none) :
    primCalls (.encrypt d) s = (if s.keyclass = .single then 1 else 3) * (encryptInput s d).length := by
  rw [primCalls, length_encryptCalls hk, Nat.mul_comm]

theorem primCalls_decrypt (d : Bytes) {s : State} (hk : s.keyclass ≠ .none) :
    primCalls (.decrypt d) s = (if s.keyclass = .single then 1 else 3) * ((zext8 d).length / 8) := by
  rw [primCalls, length_decryptCalls hk, decryptInput, length_toBlocks, Nat.mul_comm]

end Sys2Proof.Machine

open Sys2Proof Sys2Proof.Machine

/-! ## The obligations -/

/-- Settles O54: the output of `ENCRYPT` has as many blocks as the tally counts, and the calls of one block are the block
transform. -/
theorem primitiveCallCount : Obligations.PrimitiveCallCount := by
  intro d s hk
  refine ⟨?_, primCalls_decrypt d hk, runCalls_encryptCalls _ s, runCalls_decryptCalls _ s⟩
  obtain ⟨t, bs, hbody, hblocks⟩ := encryptBody_blocks Config.params d hk
  refine ⟨t.finish (ofBlocks bs), ofBlocks bs, ?_, rfl, ?_⟩
  · rw [exec_eq_complete, bodyOf, hbody, complete_ok]
  · rw [primCalls_encrypt d hk, length_ofBlocks, Nat.mul_div_cancel_left _ (by decide), hblocks]

/-- Settles O6: a presented command is run as it decodes, and a table word is presented before all else. -/
theorem stepRunsDecodedCommand : Obligations.StepRunsDecodedCommand := by
  refine ⟨fun s c es i hp hd _ => ?_, fun s nbits w i hd => ?_, fun s => step_idle⟩
  · exact (step_command hp).trans (runCommand_of_decode_ok hd _)
  · rw [step_command (s.pending_withFetchWord nbits w), s.setPending_withFetchWord,
      runCommand_of_decode_ok (decodeTableWord_eq_some hd)]

end

section
/-! The command word and its decoding (`30_encoding.md`): decoding and encoding are inverse (R72 to R76, R81), the tests of R77
on the numbers of the word's fields, the rows of the opcode map (R74), and the pseudo-commands (R83). -/

namespace Sys2Proof.Machine

/-! ## Decoding against encoding -/

/-- Decoding an encoded command sees the fields the instruction was given (R72). -/
theorem decode_encode_eq_decodeFields (i : Instr) :
    decode (encode i) = decodeFields 0 i.argField i.opcode i.payload := by
  simp [decode, encode]

/-- The row of R74 that an instruction's operation code selects reads the operands of that instruction. -/
theorem instrOf_fields (i : Instr) : instrOf i.argField i.opcode i.payload = some (.ok i) := by
  cases i <;> rfl

/-- Only `CONFIG` has an argument, so R77 (c) turns no encoded command away. -/
theorem argField_eq_zero {i : Instr} (h : i.opcode ≠ 0x01) : i.argField = 0 := by
  cases i with
  | config arg => exact absurd rfl h
  | _ => rfl

theorem decode_encode (i : Instr) : decode (encode i) = .ok i := by
  have harg : ¬(i.opcode ≠ 0x01 ∧ i.argField ≠ 0) := fun ⟨hopc, hne⟩ => hne (argField_eq_zero hopc)
  rw [decode_encode_eq_decodeFields, decodeFields, if_neg (not_not.mpr rfl), instrOf_fields]
  exact if_neg harg

theorem encode_of_decode_ok {c : Command} {i : Instr} (h : decode c = .ok i) : encode i = c := by
  obtain ⟨hrsv, hopc, harg, hpay⟩ := decodeFields_ok h
  rw [encode, hopc, harg, hpay, ← hrsv, ofFields_fields]

/-- The decoder and the encoder are inverse: a command is legal exactly when it encodes an instruction, and then only one. -/
theorem decode_eq_ok_iff {c : Command} {i : Instr} : decode c = .ok i ↔ encode i = c :=
  ⟨encode_of_decode_ok, fun h => h ▸ decode_encode i⟩

/-! ## The rows of the opcode map (R74) -/

/-- The word of a command without an argument is its operation code (R72). -/
theorem encode_of_argField_eq_zero {i : Instr} (h : i.argField = 0) : encode i = ⟨i.opcode.setWidth 32, i.payload⟩ := by
  have hword : CmdWord.ofFields 0 0 i.opcode = i.opcode.setWidth 32 := by
    apply BitVec.eq_of_toNat_eq
    simp only [ofFields_toNat, BitVec.ofNat_eq_ofNat, BitVec.toNat_ofNat, BitVec.toNat_setWidth]
    omega
  rw [encode, h, hword]

/-- The model's laws for the ten commands, as one law for every instruction. -/
theorem encodedWord (i : Instr) : Laws.EncodedWord.Statement i := by
  cases i with
  | config arg => exact Laws.EncodedWord.config arg
  | setkey raw => exact Laws.EncodedWord.setkey raw
  | setiv iv => exact Laws.EncodedWord.setiv iv
  | enpad => exact Laws.EncodedWord.enpad
  | dispad => exact Laws.EncodedWord.dispad
  | encont => exact Laws.EncodedWord.encont
  | discont => exact Laws.EncodedWord.discont
  | encrypt data => exact Laws.EncodedWord.encrypt data
  | decrypt data => exact Laws.EncodedWord.decrypt data
  | bkhint hint => exact Laws.EncodedWord.bkhint hint

/-- `CONFIG`'s mask leaves out the argument and nothing else (R74). -/
theorem fields_of_configMask {w : CmdWord} (h : w &&& 0xFFFF00FF = 0x00000001) :
    CmdWord.rsv w = 0 ∧ CmdWord.opc w = 0x01 := by
  have hrsv : CmdWord.rsv (w &&& 0xFFFF00FF) = CmdWord.rsv w &&& 0xFFFF := BitVec.extractLsb'_and
  have hopc : CmdWord.opc (w &&& 0xFFFF00FF) = CmdWord.opc w &&& 0xFF := BitVec.extractLsb'_and
  have hr : CmdWord.rsv w &&& BitVec.allOnes 16 = 0 := hrsv.symm.trans (h ▸ rfl)
  have ho : CmdWord.opc w &&& BitVec.allOnes 8 = 0x01 := hopc.symm.trans (h ▸ rfl)
  exact ⟨BitVec.and_allOnes.symm.trans hr, BitVec.and_allOnes.symm.trans ho⟩

/-- The word of a `CONFIG` is free in its argument (R75). -/
theorem encode_config_arg {w : CmdWord} (hrsv : CmdWord.rsv w = 0) (hopc : CmdWord.opc w = 0x01) :
    encode (.config (CmdWord.arg w)) = ⟨w, []⟩ := by
  have hw := ofFields_fields w
  rw [hrsv, hopc] at hw
  exact congrArg (Command.mk · []) hw

/-- A format N or A row allows the empty payload only (R73). -/
theorem eq_nil_of_allows {r : OpcodeRow} {p : Bytes} (hf : r.format ≠ .p) (h : r.allows p = true) : p = [] := by
  unfold OpcodeRow.allows at h
  split at h
  · exact List.isEmpty_iff.mp h
  · exact List.isEmpty_iff.mp h
  · contradiction

/-- A row whose mask takes every bit is selected by one word, its pattern: the word of the command with its code. -/
theorem encode_of_selects {i : Instr} {f : Format} {w : CmdWord} {p : Bytes} (harg : i.argField = 0) (hp : i.payload = p)
    (hw : OpcodeRow.selects ⟨i.mnemonic, f, i.opcode.setWidth 32, 0xFFFFFFFF⟩ w = true) : encode i = ⟨w, p⟩ := by
  have hword : w = i.opcode.setWidth 32 := BitVec.and_allOnes.symm.trans (eq_of_beq hw)
  rw [encode_of_argField_eq_zero harg, hp, hword]

/-- Every row, on a word that selects it and a payload it allows, is the encoding of an instruction of its mnemonic. -/
theorem exists_encode_of_row (w : CmdWord) (p : Bytes) : ∀ r ∈ opcodeMap, r.selects w = true → r.allows p = true →
    ∃ i, encode i = ⟨w, p⟩ ∧ i.mnemonic = r.mnemonic := by
  simp only [opcodeMap, List.forall_mem_cons]
  refine ⟨fun hw hp => ?config, fun hw _ => ⟨.setkey p, encode_of_selects rfl rfl hw, rfl⟩,
    fun hw _ => ⟨.setiv p, encode_of_selects rfl rfl hw, rfl⟩,
    fun hw hp => ⟨.enpad, encode_of_selects rfl (eq_nil_of_allows (by simp) hp).symm hw, rfl⟩,
    fun hw hp => ⟨.dispad, encode_of_selects rfl (eq_nil_of_allows (by simp) hp).symm hw, rfl⟩,
    fun hw hp => ⟨.encont, encode_of_selects rfl (eq_nil_of_allows (by simp) hp).symm hw, rfl⟩,
    fun hw hp => ⟨.discont, encode_of_selects rfl (eq_nil_of_allows (by simp) hp).symm hw, rfl⟩,
    fun hw _ => ⟨.encrypt p, encode_of_selects rfl rfl hw, rfl⟩,
    fun hw _ => ⟨.decrypt p, encode_of_selects rfl rfl hw, rfl⟩,
    fun hw _ => ⟨.bkhint p, encode_of_selects rfl rfl hw, rfl⟩, by simp⟩
  case config =>
    obtain ⟨hrsv, hopc⟩ := fields_of_configMask (eq_of_beq hw)
    cases eq_nil_of_allows (by simp) hp
    exact ⟨_, encode_config_arg hrsv hopc, rfl⟩

/-! ## The tests of R77 on the numbers of the fields -/

theorem noPayload_of_ne_nil (i : Instr) {p : Bytes} (h : p ≠ []) : noPayload i p = .error .strayPayload := by
  obtain ⟨b, q, rfl⟩ := List.exists_cons_of_ne_nil h
  exact noPayload_cons i b q

section Tests
variable {w : CmdWord} (p : Bytes)

theorem rsv_eq_zero (h : w.toNat / 65536 = 0) : CmdWord.rsv w = 0 :=
  BitVec.eq_of_toNat_eq ((rsv_toNat w).trans h)

/-- R77 (a). -/
theorem decode_reservedBits (h : w.toNat / 65536 ≠ 0) : decode ⟨w, p⟩ = .error .reservedBits := by
  have hrsv : CmdWord.rsv w ≠ 0 := fun h0 => h (by rw [← rsv_toNat, h0]; rfl)
  exact if_pos hrsv

/-- R77 (b). -/
theorem decode_unassignedOpcode (hr : w.toNat / 65536 = 0) (h : w.toNat % 256 = 0 ∨ 11 ≤ w.toNat % 256) :
    decode ⟨w, p⟩ = .error .unassignedOpcode := by
  rw [← opc_toNat] at h
  simp [decode, decodeFields, rsv_eq_zero hr, instrOf_unassigned p h]

/-- The row of an assigned code makes R77's last test, on the payload, when its format is N or A, and otherwise no test. -/
theorem instrOf_assigned (arg : BitVec 8) {opc : BitVec 8} (h1 : 1 ≤ opc.toNat) (h10 : opc.toNat ≤ 10) :
    ∃ i, instrOf arg opc p = some (if opc.toNat ∈ [1, 4, 5, 6, 7] then noPayload i p else .ok i) := by
  rcases opc_cases opc with rfl | rfl | rfl | rfl | rfl | rfl | rfl | rfl | rfl | rfl | hu
  case inr.inr.inr.inr.inr.inr.inr.inr.inr.inr => omega
  all_goals exact ⟨_, rfl⟩

/-- R77 (c), and (d) after it, on an assigned code. -/
theorem decode_assignedOpcode (hr : w.toNat / 65536 = 0) (h1 : 1 ≤ w.toNat % 256) (h10 : w.toNat % 256 ≤ 10) :
    ∃ i, decode ⟨w, p⟩ =
      if w.toNat % 256 ≠ 1 ∧ w.toNat / 256 % 256 ≠ 0 then .error .strayArgument
      else if w.toNat % 256 ∈ [1, 4, 5, 6, 7] then noPayload i p else .ok i := by
  rw [← opc_toNat] at h1 h10
  obtain ⟨i, hi⟩ := instrOf_assigned p (CmdWord.arg w) h1 h10
  refine ⟨i, ?_⟩
  rw [← opc_toNat, ← arg_toNat]
  simp [decode, decodeFields, rsv_eq_zero hr, hi, BitVec.toNat_eq]

end Tests

/-! ## Illegal commands -/

/-- An illegal command raises `ERR_ILLEGAL` before the state is looked at (R77, R162, R167). -/
theorem runCommand_of_decode_error {c : Command} {e : Illegal} (h : decode c = .error e) (s : State) :
    runCommand c s = .next (s.raiseError .illegal) := by
  simp [runCommand, h]

/-! ## Sequences that end with `OK`, and the pseudo-commands -/

theorem session_nil_ok (s : State) : ∃ rs, session [] s = some (s, rs) ∧ AllOk rs :=
  ⟨[], rfl, fun _ h => absurd h List.not_mem_nil⟩

/-- A sequence goes on after a command whose rule ends with `OK`. -/
theorem session_cons_ok {i : Instr} {is : List Instr} {s t u : State} {out : Bytes} (h : bodyOf i s = .ok (t, out))
    (hrest : ∃ rs, session is (t.finish out) = some (u, rs) ∧ AllOk rs) :
    ∃ rs, session (i :: is) s = some (u, rs) ∧ AllOk rs := by
  obtain ⟨rs, hs, hok⟩ := hrest
  have hexec : exec i s = .next (t.finish out) := by rw [exec_eq_complete, h, complete_ok]
  refine ⟨⟨statusOk, out⟩ :: rs, by simp [session, hexec, hs], ?_⟩
  exact List.forall_mem_cons.mpr ⟨rfl, hok⟩

/-- Loading a key writes the key class and the sub-keys only, and there is a key afterwards (R101). -/
theorem loadKey_eq (k : SubKeys) (s : State) : ∃ kc a b c, kc ≠ .none ∧
    loadKey k s = { s with keyclass := kc, k1 := a, k2 := b, k3 := c } := by
  cases k with
  | single k1 => exact ⟨.single, k1, s.k2, s.k3, by decide, rfl⟩
  | triple k1 k2 k3 => exact ⟨.triple, k1, k2, k3, by decide, rfl⟩

end Sys2Proof.Machine

open Sys2Proof Sys2Proof.Machine

/-! ## The obligations -/

/-- Settles O1: the encoder gives the decoder back the fields of the instruction; every payload is well-formed. -/
theorem decodeEncodeRoundTrip : Obligations.DecodeEncodeRoundTrip := fun i _ => decode_encode i

/-- Settles O2: the decoder answers with an instruction of the word's own fields, and the fields are the whole word. -/
theorem encodeDecodeRoundTrip : Obligations.EncodeDecodeRoundTrip := fun _ _ => encode_of_decode_ok

/-- Settles O4: a legal command encodes an instruction, whose word has a row; a row's word encodes an instruction. -/
theorem decodingFollowsOpcodeMap : Obligations.DecodingFollowsOpcodeMap := by
  refine ⟨fun c i h => ?_, fun c r hr hw hp => ?_⟩
  · obtain ⟨-, -, -, -, -, r, hr, hn, hw, hp⟩ := encodedWord i
    obtain rfl := encode_of_decode_ok h
    exact ⟨r, hr, hw, hp, hn, rfl⟩
  · obtain ⟨i, hi, hn⟩ := exists_encode_of_row c.cmdw c.payload r hr hw hp
    exact ⟨i, decode_eq_ok_iff.mpr hi, hn⟩

/-- Settles O5: one equation of the decoder for each of the first tests, and one for the two that need an assigned code. -/
theorem illegalCommandTests : Obligations.IllegalCommandTests := by
  intro w p
  refine ⟨decode_reservedBits p, decode_unassignedOpcode p, fun hr h1 h10 hne ha => ?argument,
    fun hr ha hf hp => ?payload, fun hr h1 h10 ha hp => ?legal, fun e h s => runCommand_of_decode_error h s⟩
  case argument =>
    obtain ⟨i, hi⟩ := decode_assignedOpcode p hr h1 h10
    rw [hi, if_pos ⟨hne, ha⟩]
  case payload =>
    obtain ⟨h1, h10⟩ : 1 ≤ w.toNat % 256 ∧ w.toNat % 256 ≤ 10 := by
      simp only [List.mem_cons, List.not_mem_nil, or_false] at hf; omega
    obtain ⟨i, hi⟩ := decode_assignedOpcode p hr h1 h10
    rw [hi, if_neg (by omega), if_pos hf, noPayload_of_ne_nil i hp]
  case legal =>
    obtain ⟨i, hi⟩ := decode_assignedOpcode p hr h1 h10
    refine ⟨i, ?_⟩
    rw [hi, if_neg (by omega)]
    split
    · rw [hp ‹_›, noPayload_nil]
    · rfl

/-- Settles O3: the legal words are encodings, and the decoder is run on the illegal ones. -/
theorem workedWordsDecode : Obligations.WorkedWordsDecode :=
  ⟨decode_encode (.config 0x01), decode_encode (.config 0xFF), decode_encode (.setkey [0x01, 0x02]),
    decode_encode (.setiv [0xA0]), decode_encode .enpad, decode_encode .dispad, decode_encode .encont,
    decode_encode .discont, decode_encode (.encrypt [0x11]), decode_encode (.decrypt [0x22]),
    decode_encode (.bkhint [0x78]), rfl, rfl, rfl, rfl⟩

/-- Settles O7: the step is the transaction of the command, on the state with the event taken. -/
theorem illegalCommandStep : Obligations.IllegalCommandStep := fun _ _ _ _ hp hd =>
  (step_command hp).trans (runCommand_of_decode_error hd _)

/-- Settles O13: the word is the encoding of `BKHINT`, whose rule leaves the state as it is. -/
theorem bkhintIsNoOp : Obligations.BkhintIsNoOp := fun hint s =>
  ⟨decode_eq_ok_iff.mpr (encode_of_argField_eq_zero rfl), exec_eq_complete (.bkhint hint) s⟩

/-- Settles O40: the sequence is run command by command, each rule ending with `OK`. -/
theorem pseudoCommandsExpand : Obligations.PseudoCommandsExpand := by
  refine ⟨fun m key iv s hiv => ?init, fun s => ⟨rfl, ?rewind⟩⟩
  case init =>
    have hsession := session_cons_ok (i := .config m) (s := s) rfl <| session_cons_ok (i := .setkey key) rfl <|
      session_cons_ok (i := .setiv iv) (setivBody_of_eight hiv _) (session_nil_ok _)
    obtain ⟨rs, hrs, hok⟩ := hsession
    obtain ⟨kc, a, b, c, hkey, hload⟩ := loadKey_eq (deriveSubKeys key) ((s.construct (modeOfArg m)).finish [])
    rw [hload] at hrs
    exact ⟨_, rs, blockOf iv, rfl, hrs, hok, rfl, rfl, rfl, hkey, blockBytes_blockOf hiv, rfl, rfl, rfl, stagesZero_reset⟩
  case rewind =>
    exact session_cons_ok (i := .discont) rfl <| session_cons_ok (i := .encont) rfl (session_nil_ok _)

end

section
/-! The order of control commands (`40_control.md` R94). Each writes one part of the configuration, the same way from every state
and whatever the host's side of the state is, and writes of different parts commute. Of all the pairs only `SETIV` and `DISCONT`
touch a common register, the slots: both leave `BASEIV` there. -/

namespace Sys2Proof.Machine

/-! ## The write of a control command -/

/-- What a control command does to the registers, by the part of the configuration it sets, numbered as in `controlGroup`. -/
inductive ControlWrite : Nat → (State → State) → Prop where
  | key (k : SubKeys) : ControlWrite 0 (loadKey k)
  | iv (v : Block) : ControlWrite 1 (·.loadIv v)
  | rejectedIv : ControlWrite 1 id
  | padding (b : Bool) : ControlWrite 2 (·.setPaden b)
  | continuous : ControlWrite 3 (·.setConten true)
  | discontinuous : ControlWrite 3 fun s => (s.setConten false).rewind

/-- A control command makes the write of its part, and gives the same response, in every state (R91, R92, R101, R121 to R123). -/
theorem exec_controlWrite {i : Instr} {m : Nat} (h : controlGroup i = some m) :
    ∃ w r, ControlWrite m w ∧ ∀ s, exec i s = .next ((w s).respond r) := by
  cases i with
  | setkey raw => cases h; exact ⟨_, _, .key (deriveSubKeys raw), exec_eq_complete (.setkey raw)⟩
  | setiv iv =>
    cases h
    rcases exec_setiv_uniform iv with ⟨v, hload⟩ | hreject
    · exact ⟨_, _, .iv v, hload⟩
    · exact ⟨_, _, .rejectedIv, hreject⟩
  | enpad => cases h; exact ⟨_, _, .padding true, exec_eq_complete .enpad⟩
  | dispad => cases h; exact ⟨_, _, .padding false, exec_eq_complete .dispad⟩
  | encont => cases h; exact ⟨_, _, .continuous, exec_eq_complete .encont⟩
  | discont => cases h; exact ⟨_, _, .discontinuous, exec_eq_complete .discont⟩
  | config arg => cases h
  | encrypt data => cases h
  | decrypt data => cases h
  | bkhint hint => cases h

/-! ## Writes commute -/

section Commute

variable {m n : Nat} {v w : State → State}

/-- A control command reads and writes nothing of the count and the response. -/
theorem ControlWrite.respond (hw : ControlWrite m w) (s : State) (r : Response) : w (s.respond r) = (w s).respond r := by
  cases hw with
  | key k => cases k <;> rfl
  | _ => rfl

/-- No write of another part reads or writes the key class and the sub-keys. -/
theorem ControlWrite.loadKey_comm (hw : ControlWrite n w) (hn : 0 < n) (k : SubKeys) (s : State) :
    loadKey k (w s) = w (loadKey k s) := by
  cases hw with
  | key _ => omega
  | _ => cases k <;> rfl

/-- Writes of different parts commute, here with the lower part on the left. -/
theorem ControlWrite.comm_of_lt (hv : ControlWrite m v) (hw : ControlWrite n w) (h : m < n) (s : State) :
    v (w s) = w (v s) := by
  cases hv with
  | key k => exact hw.loadKey_comm h k s
  | iv x =>
    cases hw with
    | padding b => rfl
    | continuous => rfl
    | discontinuous => rfl
    | _ => omega
  | rejectedIv => rfl
  | padding b =>
    cases hw with
    | continuous => rfl
    | discontinuous => rfl
    | _ => omega
  | continuous => cases hw <;> omega
  | discontinuous => cases hw <;> omega

/-- Writes of different parts commute (R94). -/
theorem ControlWrite.comm (hv : ControlWrite m v) (hw : ControlWrite n w) (hne : m ≠ n) (s : State) : v (w s) = w (v s) := by
  rcases Nat.lt_or_gt_of_ne hne with h | h
  · exact hv.comm_of_lt hw h s
  · exact (hw.comm_of_lt hv h s).symm

end Commute

@[simp] theorem registers_respond (s : State) (r : Response) : registers (s.respond r) = registers s := rfl

end Sys2Proof.Machine

open Sys2Proof Sys2Proof.Machine

/-! ## The obligations -/

/-- Settles O17: both orders make the same two writes, which commute, and the responses between and after them are no registers. -/
theorem controlOrderIrrelevant : Obligations.ControlOrderIrrelevant := by
  intro i j m n s hi hj hne
  obtain ⟨v, q, hv, hexeci⟩ := exec_controlWrite hi
  obtain ⟨w, r, hw, hexecj⟩ := exec_controlWrite hj
  refine ⟨_, _, _, _, hexeci s, hexecj _, hexecj s, hexeci _, ?_⟩
  calc registers ((w ((v s).respond q)).respond r)
      = registers (w (v s)) := by simp [hw.respond]
    _ = registers (v (w s)) := by rw [hv.comm hw hne]
    _ = registers ((v ((w s).respond r)).respond q) := by simp [hv.respond]

/-- Settles O11: the rule of `ENPAD`, then the end of the command with `OK`. -/
theorem enpadSetsPaden : Obligations.EnpadSetsPaden := exec_eq_complete .enpad

/-- Settles O12: the rule of `DISPAD`, then the end of the command with `OK`. -/
theorem dispadClearsPaden : Obligations.DispadClearsPaden := exec_eq_complete .dispad

end

section
/-! The KeyScheduler (`41_key_scheduler.md`): the sub-keys, one equation for each form of key (R100), and what `SETKEY` does with
them (R101, R103). -/

namespace Sys2Proof.Machine

/-! ## The sub-keys by the length of the raw key (R100) -/

section Derive

variable {raw : Bytes}

theorem deriveSubKeys_short (h : raw.length ≤ 8) :
    deriveSubKeys raw = .single (blockOf (raw ++ zeros (8 - raw.length))) := by
  rw [deriveSubKeys, if_pos h]

/-- The sub-keys of a long key are the three parts of its buffer. -/
theorem deriveSubKeys_of_keyBuffer {x y z : Bytes} (h : 8 < raw.length) (hbuf : keyBuffer raw = x ++ y ++ z)
    (hx : x.length = 8) (hy : y.length = 8) (hz : z.length = 8) :
    deriveSubKeys raw = .triple (blockOf x) (blockOf y) (blockOf z) := by
  rw [deriveSubKeys, if_neg (by omega), hbuf]
  simp [List.drop_append, List.take_of_length_le, List.drop_of_length_le, hx, hy, hz]

/-- Two-key form: the second part is padded to 8 bytes, and the third is the first again. -/
theorem deriveSubKeys_twoKey (h : 8 < raw.length) (h16 : raw.length ≤ 16) :
    deriveSubKeys raw = .triple (blockOf (raw.take 8)) (blockOf (raw.drop 8 ++ zeros (16 - raw.length)))
      (blockOf (raw.take 8)) := by
  refine deriveSubKeys_of_keyBuffer h ?_ (by simp; omega) (by simp; omega) (by simp; omega)
  have hbuf : raw.take 24 ++ zeros (24 - min raw.length 24) = raw ++ zeros (24 - raw.length) := by
    rw [List.take_of_length_le (by omega), Nat.min_eq_left (by omega)]
  have hfill : (raw ++ zeros (24 - raw.length)).take 16 = raw ++ zeros (16 - raw.length) := by
    have hmin : min (16 - raw.length) (24 - raw.length) = 16 - raw.length := by omega
    rw [List.take_append, List.take_of_length_le h16, zeros, rep, List.take_replicate, hmin]; rfl
  have hhead : (raw ++ zeros (24 - raw.length)).take 8 = raw.take 8 := List.take_append_of_le_length h.le
  rw [keyBuffer, if_pos h16, hbuf, hfill, hhead, ← List.append_assoc, List.take_append_drop]

/-- Three-key form: the third part is padded to 8 bytes, or what lies past the 24th byte is dropped. -/
theorem deriveSubKeys_threeKey (h : 16 < raw.length) :
    deriveSubKeys raw = .triple (blockOf (raw.take 8)) (blockOf ((raw.drop 8).take 8))
      (blockOf ((raw.drop 16).take 8 ++ zeros (24 - raw.length))) := by
  refine deriveSubKeys_of_keyBuffer (by omega) ?_ (by simp; omega) (by simp; omega) (by simp; omega)
  have hcut : raw.take 24 = raw.take 8 ++ (raw.drop 8).take 8 ++ (raw.drop 16).take 8 := by
    rw [← List.take_add, ← List.take_add]
  have hpad : 24 - min raw.length 24 = 24 - raw.length := by omega
  rw [keyBuffer, if_neg (by omega), hcut, hpad, List.append_assoc]

end Derive

/-- Bytes past the 24th are ignored (R101). -/
theorem deriveSubKeys_take_24 (raw : Bytes) : deriveSubKeys (raw.take 24) = deriveSubKeys raw := by
  rcases Nat.lt_or_ge 24 raw.length with h | h
  · rw [deriveSubKeys_threeKey (raw := raw.take 24) (by simp; omega), deriveSubKeys_threeKey (raw := raw) (by omega)]
    have hpad : 24 - min 24 raw.length = 24 - raw.length := by omega
    simp [List.take_take, List.drop_take, hpad]
  · rw [List.take_of_length_le h]

/-- Three whole blocks are their own sub-keys (R103). -/
theorem deriveSubKeys_blocks (a b c : Block) :
    deriveSubKeys (blockBytes a ++ blockBytes b ++ blockBytes c) = .triple a b c :=
  deriveSubKeys_threeKey (raw := blockBytes a ++ blockBytes b ++ blockBytes c) (by simp)

/-! ## `SETKEY` (R101) -/

/-- `SETKEY` loads what it derives, and its status is `OK`. -/
theorem exec_setkey (raw : Bytes) (s : State) :
    exec (.setkey raw) s = .next ((loadKey (deriveSubKeys raw) s).respond ⟨statusOk, []⟩) :=
  exec_eq_complete (.setkey raw) s

theorem exec_setkey_single {raw : Bytes} {k : Block} (h : deriveSubKeys raw = .single k) (s : State) :
    exec (.setkey raw) s = .next ((s.loadSingle k).respond ⟨statusOk, []⟩) := by
  rw [exec_setkey, h]; rfl

theorem exec_setkey_triple {raw : Bytes} {a b c : Block} (h : deriveSubKeys raw = .triple a b c) (s : State) :
    exec (.setkey raw) s = .next ((s.loadTriple a b c).respond ⟨statusOk, []⟩) := by
  rw [exec_setkey, h]; rfl

theorem loadKey_idempotent (k : SubKeys) (s : State) : loadKey k (loadKey k s) = loadKey k s := by
  cases k <;> rfl

end Sys2Proof.Machine

open Sys2Proof Sys2Proof.Machine

/-! ## The obligations -/

/-- Settles O18: the three forms of key, each with its equation for the sub-keys; the clauses of the other lengths are empty. -/
theorem setkeyByLength : Obligations.SetkeyByLength := by
  intro raw s
  have hform : raw.length ≤ 8 ∨ (8 < raw.length ∧ raw.length ≤ 16) ∨ 16 < raw.length := by omega
  rcases hform with h | ⟨h, h16⟩ | h
  case inl =>
    refine ⟨.single, blockOf _, s.k2, s.k3, exec_setkey_single (deriveSubKeys_short h) s,
      fun _ => ⟨rfl, blockBytes_blockOf (by simp; omega), rfl, rfl⟩, ?_⟩
    omega
  case inr.inl =>
    refine ⟨.triple, blockOf _, blockOf _, blockOf _, exec_setkey_triple (deriveSubKeys_twoKey h h16) s, by omega,
      fun _ => ⟨rfl, blockBytes_blockOf (by simp; omega)⟩, fun _ _ => ⟨blockBytes_blockOf (by simp; omega), rfl⟩, ?_⟩
    omega
  case inr.inr =>
    have hthird := blockBytes_blockOf (d := (raw.drop 16).take 8 ++ zeros (24 - raw.length)) (by simp; omega)
    refine ⟨.triple, blockOf _, blockOf _, blockOf _, exec_setkey_triple (deriveSubKeys_threeKey h) s, by omega,
      fun _ => ⟨rfl, blockBytes_blockOf (by simp; omega)⟩, by omega, fun _ => blockBytes_blockOf (by simp; omega),
      fun _ h24 => ?padded, fun h24 => ?cut⟩
    case padded => rw [hthird, List.take_of_length_le (by simp; omega)]; rfl
    case cut => rw [hthird, Nat.sub_eq_zero_of_le h24.le]; exact List.append_nil _

/-- Settles O19: both payloads derive what their common first 24 bytes derive. -/
theorem setkeyIgnoresBytesPast24 : Obligations.SetkeyIgnoresBytesPast24 := by
  intro raw raw' s h
  rw [exec_setkey, exec_setkey, ← deriveSubKeys_take_24 raw, h, deriveSubKeys_take_24]

/-- Settles O20: the derivation is the same both times, and loading the same sub-keys twice is loading them once. -/
theorem setkeyIdempotent : Obligations.SetkeyIdempotent := by
  refine ⟨fun raw s => ⟨_, _, exec_setkey raw s, exec_setkey raw _, ?_⟩, fun _ a b c _ => deriveSubKeys_blocks a b c⟩
  rw [(ControlWrite.key _).respond, loadKey_idempotent, registers_respond]

end

section
/-! The Padder (`42_padder.md`): the bytes that `pad` and `zext8` append (R110, R115), the answer of `unpad` under each policy
(R112 to R114, R165), and the length of the output of a data command (R116). -/

namespace Sys2Proof.Machine

/-! ## `pad` and `zext8` -/

theorem pad_eq_append (d : Bytes) : pad d = d ++ rep (BitVec.ofNat 8 (8 - d.length % 8)) (8 - d.length % 8) := rfl

/-- The value of a pad byte is the number of pad bytes: at most 8 bytes fit a byte. -/
theorem toNat_of_mem_rep {n : Nat} (hn : n ≤ 8) {x : Byte} (hx : x ∈ rep (BitVec.ofNat 8 n) n) : x.toNat = n := by
  obtain rfl := List.eq_of_mem_replicate hx
  rw [BitVec.toNat_ofNat, Nat.mod_eq_of_lt (by omega)]

/-- The two cases of R115 in one: the number of zero bytes is itself taken modulo 8. -/
theorem zext8_eq_append (d : Bytes) : zext8 d = d ++ zeros ((8 - d.length % 8) % 8) := by
  by_cases h : d.length % 8 = 0
  · rw [zext8_of_aligned h, h]; exact (List.append_nil d).symm
  · rw [zext8, if_neg h, Nat.mod_eq_of_lt (a := 8 - d.length % 8) (by omega)]

theorem zext8_eq_self_iff (d : Bytes) : zext8 d = d ↔ d.length % 8 = 0 := by
  refine ⟨fun h => ?_, zext8_of_aligned⟩
  have hlen := length_zext8 d
  rw [h] at hlen
  omega

/-- A padded sequence is whole blocks (R115). -/
theorem zext8_pad (d : Bytes) : zext8 (pad d) = pad d := zext8_of_aligned (by rw [length_pad]; omega)

/-! ## `unpad` by the last byte -/

/-- The last `n` bytes, as a part of the sequence and one by one from the end. -/
theorem forall_mem_lastBytes_iff {d : Bytes} {n : Nat} (hn : n ≤ d.length) (b : Byte) :
    (∀ x ∈ d.drop (d.length - n), x = b) ↔ ∀ j, j < n → d[d.length - 1 - j]? = some b := by
  simp only [List.mem_drop_iff_getElem]
  constructor
  · intro h j hj
    rw [List.getElem?_eq_getElem (by omega)]
    exact congrArg some (h _ ⟨n - 1 - j, by omega, by congr 1; omega⟩)
  · rintro h _ ⟨i, hi, rfl⟩
    have hlast := h (n - 1 - i) (by omega)
    rw [show d.length - 1 - (n - 1 - i) = d.length - n + i by omega, List.getElem?_eq_getElem (by omega)] at hlast
    exact Option.some.inj hlast

/-- `LENIENT` tests nothing but that there are as many bytes as the last one says (R113). -/
theorem unpad_lenient_concat (d : Bytes) (b : Byte) : unpad .lenient (d ++ [b]) =
    if b.toNat ≤ (d ++ [b]).length then .ok ((d ++ [b]).take ((d ++ [b]).length - b.toNat)) else .error .pad := by
  simp only [unpad_concat, padAccepted_lenient_iff]

/-- `STRICT` on a last byte that no padding ends with (R114). -/
theorem unpad_strict_concat_of_range {d : Bytes} {b : Byte} (h : b.toNat = 0 ∨ 8 < b.toNat) :
    unpad .strict (d ++ [b]) = .error .pad := by
  rw [unpad_concat, if_neg]
  rw [padAccepted_strict_iff]
  omega

/-- `STRICT` on a last byte `n` from 1 to 8 tests the last `n` bytes (R114). -/
theorem unpad_strict_concat_of_pattern {d : Bytes} {b : Byte} (h1 : 1 ≤ b.toNat) (h8 : b.toNat ≤ 8)
    (hlen : b.toNat ≤ (d ++ [b]).length) : unpad .strict (d ++ [b]) =
      if ∀ j, j < b.toNat → (d ++ [b])[(d ++ [b]).length - 1 - j]? = some b
      then .ok ((d ++ [b]).take ((d ++ [b]).length - b.toNat)) else .error .pad := by
  simp only [unpad_concat, padAccepted_strict_iff, forall_mem_lastBytes_iff hlen, h1, h8, true_and]

/-! ## `unpad` against `pad` -/

/-- Padding is removed under both policies (R114). -/
theorem unpad_pad (policy : PadPolicy) (d : Bytes) : unpad policy (pad d) = .ok d :=
  unpad_append_rep policy d (by omega) (by omega)

section Accepted

variable {policy : PadPolicy} {d x : Bytes}

/-- On whole blocks neither policy strips more bytes than there are: `LENIENT` tests it, and `STRICT` strips one block at most. -/
theorem le_length_of_padAccepted {b : Byte} (hd : d.length % 8 = 0) (hb : d.getLast? = some b)
    (h : padAccepted policy d b = true) : b.toNat ≤ d.length := by
  cases policy with
  | lenient => exact (padAccepted_lenient_iff d b).mp h
  | strict =>
    obtain ⟨-, h8, -⟩ := (padAccepted_strict_iff d b).mp h
    have hpos : 0 < d.length := List.length_pos_of_mem (List.mem_of_getLast? hb)
    omega

/-- What is left of whole blocks is shorter by the last byte (R116). -/
theorem length_unpad (hd : d.length % 8 = 0) (h : unpad policy d = .ok x) :
    ∃ b, d.getLast? = some b ∧ x.length + b.toNat = d.length := by
  obtain ⟨b, hb, hacc, rfl⟩ := unpad_ok h
  have hle := le_length_of_padAccepted hd hb hacc
  exact ⟨b, hb, by rw [List.length_take]; omega⟩

/-- What `STRICT` accepts on whole blocks is padding: the length of `x` fixes the one pattern that `pad` appends (R114). -/
theorem eq_pad_of_unpad_strict (hd : d.length % 8 = 0) (h : unpad .strict d = .ok x) : d = pad x := by
  obtain ⟨b, hb, hacc, rfl⟩ := unpad_ok h
  have hle := le_length_of_padAccepted hd hb hacc
  obtain ⟨h1, h8, htail⟩ := (padAccepted_strict_iff d b).mp hacc
  have hcount : 8 - (d.take (d.length - b.toNat)).length % 8 = b.toNat := by rw [List.length_take]; omega
  have hdrop : d.drop (d.length - b.toNat) = rep b b.toNat :=
    List.eq_replicate_iff.mpr ⟨by rw [List.length_drop]; omega, htail⟩
  rw [pad_eq_append, hcount, BitVec.ofNat_toNat, BitVec.setWidth_eq, ← hdrop, List.take_append_drop]

end Accepted

/-! ## The lengths of the data commands -/

section Lengths

variable {P : Params} {d out : Bytes} {s t : State}

/-- The blocks an `ENCRYPT` runs over, in bytes (R116). -/
theorem length_encryptInput (d : Bytes) (s : State) :
    8 * (encryptInput s d).length = if paddingApplies s then (d.length + 8) / 8 * 8 else (d.length + 7) / 8 * 8 := by
  rw [encryptInput, length_toBlocks]
  split
  · rw [zext8_pad, length_pad]; omega
  · rw [length_zext8]; omega

/-- No stage of the cascade changes the number of blocks (R151, R153). -/
theorem length_legacyDecryptBlocks (P : Params) (m : List Block) (s : State) :
    (legacyDecryptBlocks P m s).2.length = m.length := by
  simp [legacyDecryptBlocks_eq]

/-- The cascade answers with the blocks of the zero-extended payload (R116, R155). -/
theorem length_legacyDecrypt (P : Params) (d : Bytes) (s : State) :
    (legacyDecrypt P d s).2.length = (d.length + 7) / 8 * 8 := by
  rw [legacyDecrypt, length_ofBlocks, length_legacyDecryptBlocks, length_toBlocks, length_zext8]
  omega

/-- Where padding applies, the output of a `DECRYPT` is what `unpad` leaves of the decrypted buffer (R136). -/
theorem unpad_of_decryptBody_ok (h : decryptBody P d s = .ok (t, out)) (hp : paddingApplies s = true) :
    unpad P.padPolicy (decryptBuffer P d s).2 = .ok out := by
  obtain ⟨hk, -⟩ := decryptBody_ok h
  obtain ⟨hpaden, hl⟩ : s.paden = true ∧ legacyActive s = false := by simpa [paddingApplies] using hp
  rw [decryptBody_padded _ _ hk hl hpaden] at h
  cases hu : unpad P.padPolicy (decryptBuffer P d s).2 with
  | ok x => rw [hu] at h; cases h; rfl
  | error e => rw [hu] at h; cases h

/-- Where padding does not apply, the output of a `DECRYPT` is all of the buffer, in the cascade or outside (R116). -/
theorem length_decryptBody_unpadded (h : decryptBody P d s = .ok (t, out)) (hp : paddingApplies s = false) :
    out.length = (d.length + 7) / 8 * 8 := by
  obtain ⟨hk, -⟩ := decryptBody_ok h
  cases hl : legacyActive s with
  | true =>
    rw [decryptBody_legacy _ _ hl] at h
    obtain rfl : (legacyDecrypt P d s).2 = out := congrArg Prod.snd (Except.ok.inj h)
    exact length_legacyDecrypt P d s
  | false =>
    rw [paddingApplies_of_not_legacy hl] at hp
    rw [decryptBody_unpadded _ _ hk hl hp] at h
    obtain rfl : (decryptBuffer P d s).2 = out := congrArg Prod.snd (Except.ok.inj h)
    rw [length_decryptBuffer, length_zext8]

/-- Where padding applies, the output of a `DECRYPT` is shorter than the buffer by its last byte (R116). -/
theorem length_decryptBody_padded (h : decryptBody P d s = .ok (t, out)) (hp : paddingApplies s = true) :
    ∃ b, (decryptBuffer P d s).2.getLast? = some b ∧ out.length + b.toNat = (d.length + 7) / 8 * 8 := by
  have hbuf : (decryptBuffer P d s).2.length = (d.length + 7) / 8 * 8 := by rw [length_decryptBuffer, length_zext8]
  have hstripped := length_unpad (by rw [hbuf]; omega) (unpad_of_decryptBody_ok h hp)
  rwa [hbuf] at hstripped

end Lengths

end Sys2Proof.Machine

open Sys2Proof Sys2Proof.Machine

/-! ## The obligations -/

/-- Settles O22: the tail is the run of `n` bytes that `pad` appends. -/
theorem padAppends : Obligations.PadAppends := by
  intro d
  refine ⟨8 - d.length % 8, rep _ _, rfl, by omega, by omega, pad_eq_append d, length_rep _ _,
    fun _ => toNat_of_mem_rep (by omega), ?_⟩
  rw [length_pad, Nat.add_div_right _ (by decide)]

/-- Settles O23: the number of zero bytes is `(8 - length mod 8) mod 8`. -/
theorem zeroExtension : Obligations.ZeroExtension := fun d =>
  ⟨⟨(8 - d.length % 8) % 8, by omega, zext8_eq_append d, by omega⟩, zext8_eq_self_iff d, zext8_pad d⟩

/-- Settles O24: each row by the range of the last byte; whole blocks with a last byte are 8 bytes or more. -/
theorem unpadTable : Obligations.UnpadTable := by
  refine ⟨fun _ => rfl, fun d b hd => ?_⟩
  intro buf n stripped
  have hlen : 8 ≤ buf.length := by rw [List.length_append, List.length_singleton]; omega
  have hlenient (h : n ≤ buf.length) : unpad .lenient buf = stripped := (unpad_lenient_concat d b).trans (if_pos h)
  have hpattern (h1 : 1 ≤ n) (h8 : n ≤ 8) := unpad_strict_concat_of_pattern (d := d) h1 h8 (h8.trans hlen)
  refine ⟨fun h0 => ⟨?_, unpad_strict_concat_of_range (.inl h0)⟩,
    fun h1 h8 hgood => ⟨hlenient (h8.trans hlen), (hpattern h1 h8).trans (if_pos hgood)⟩,
    fun h1 h8 ⟨j, hj, hbroken⟩ => ⟨hlenient (h8.trans hlen), (hpattern h1 h8).trans (if_neg fun h => hbroken (h j hj))⟩,
    fun h9 h => ⟨hlenient h, unpad_strict_concat_of_range (.inr h9)⟩,
    fun h => ⟨(unpad_lenient_concat d b).trans (if_neg h.not_ge), unpad_strict_concat_of_range (.inr (hlen.trans_lt h))⟩⟩
  calc unpad .lenient buf = .ok (buf.take (buf.length - n)) := hlenient (by omega)
    _ = .ok buf := by rw [h0, Nat.sub_zero, List.take_length]

/-- Settles O25: padding is removed under both policies, and what `STRICT` accepts is padding. -/
theorem unpadInvertsPad : Obligations.UnpadInvertsPad := by
  refine ⟨unpad_pad, fun d x hd => ⟨eq_pad_of_unpad_strict hd, ?_⟩⟩
  rintro rfl
  exact unpad_pad .strict x

/-- Settles O33: `ENCRYPT` puts out the blocks it runs over; a `DECRYPT` with a key ends with `OK` and one of the two lengths, or
with `ERR_PAD` where padding applies. -/
theorem outputLengths : Obligations.OutputLengths := by
  refine ⟨fun d s hk => ?encrypt, fun c s hk => ?decrypt⟩
  case encrypt =>
    obtain ⟨t, bs, hbody, hblocks⟩ := encryptBody_blocks Config.params d hk
    refine ⟨_, _, (exec_eq_complete (.encrypt d) s).trans (congrArg (complete s) hbody), rfl, ?_⟩
    rw [length_ofBlocks, hblocks, length_encryptInput]
  case decrypt =>
    rcases exec_cases (.decrypt c) s with ⟨t, out, hbody, hexec⟩ | ⟨e, hbody, hexec⟩
    · exact ⟨_, _, hexec, rfl, fun hp => ⟨rfl, length_decryptBody_unpadded hbody hp⟩,
        fun hp _ => length_decryptBody_padded hbody hp⟩
    · rcases decryptBody_error hbody with ⟨-, hnone⟩ | ⟨rfl, -, hp, -⟩
      · exact absurd hnone hk
      · exact ⟨_, _, hexec, rfl, fun hn => absurd (hp.symm.trans hn) (by decide), fun _ hok => absurd hok (by decide)⟩

end

section
/-! The chain state (`43_chainstate.md`): what a data command can write, on every path (R126), and that one that writes nothing
answers the same again (R144). -/

namespace Sys2Proof.Machine

/-! ## What a data command writes -/

/-- Whatever its path and status, `ENCRYPT` writes its own chain and responds: `ENCIV` in CBC with `CONTEN = 1` only, its stage
registers in the cascade only. -/
theorem exec_encrypt_writes (d : Bytes) (s : State) : ∃ e a b c r,
    exec (.encrypt d) s = .next ((s.setEncryptChain e a b c).respond r) ∧
    (¬(cbcMode s = true ∧ s.conten = true) → e = s.enciv) ∧
    (legacyActive s = false → a = s.senc1 ∧ b = s.sdec2 ∧ c = s.senc3) := by
  rcases exec_cases (.encrypt d) s with ⟨t, out, hb, hexec⟩ | ⟨err, -, hexec⟩
  · cases bodyOf_effect hb with
    | encrypt _ _ slot stages => exact ⟨_, _, _, _, _, hexec, slot, stages⟩
  · exact ⟨s.enciv, s.senc1, s.sdec2, s.senc3, _, hexec, fun _ => rfl, fun _ => ⟨rfl, rfl, rfl⟩⟩

/-- Whatever its path and status, `DECRYPT` writes its own chain and responds: `DECIV` in CBC with `CONTEN = 1` only, its stage
registers in the cascade only. -/
theorem exec_decrypt_writes (d : Bytes) (s : State) : ∃ x a b c r,
    exec (.decrypt d) s = .next ((s.setDecryptChain x a b c).respond r) ∧
    (¬(cbcMode s = true ∧ s.conten = true) → x = s.deciv) ∧
    (legacyActive s = false → a = s.sdec1 ∧ b = s.senc2 ∧ c = s.sdec3) := by
  rcases exec_cases (.decrypt d) s with ⟨t, out, hb, hexec⟩ | ⟨err, -, hexec⟩
  · cases bodyOf_effect hb with
    | decrypt _ _ slot stages => exact ⟨_, _, _, _, _, hexec, slot, stages⟩
  · exact ⟨s.deciv, s.sdec1, s.senc2, s.sdec3, _, hexec, fun _ => rfl, fun _ => ⟨rfl, rfl, rfl⟩⟩

/-! ## Discontinuous data commands -/

section Discontinuous

variable (d : Bytes) {s : State} (hc : s.conten = false) (hl : legacyActive s = false)
include hc hl

/-- With `CONTEN = 0` outside the cascade `ENCRYPT` does nothing but respond (R125). -/
theorem exec_encrypt_discontinuous : ∃ r, exec (.encrypt d) s = .next (s.respond r) := by
  obtain ⟨e, a, b, c, r, hexec, slot, stages⟩ := exec_encrypt_writes d s
  obtain rfl := slot (by simp [hc])
  obtain ⟨rfl, rfl, rfl⟩ := stages hl
  exact ⟨r, hexec⟩

/-- With `CONTEN = 0` outside the cascade `DECRYPT` does nothing but respond (R125). -/
theorem exec_decrypt_discontinuous : ∃ r, exec (.decrypt d) s = .next (s.respond r) := by
  obtain ⟨x, a, b, c, r, hexec, slot, stages⟩ := exec_decrypt_writes d s
  obtain rfl := slot (by simp [hc])
  obtain ⟨rfl, rfl, rfl⟩ := stages hl
  exact ⟨r, hexec⟩

end Discontinuous

/-- A command that did nothing but respond answers the same again: no command reads the count or the last response. -/
theorem exec_respond_again {i : Instr} {s : State} {r : Response} (h : exec i s = .next (s.respond r)) :
    exec i (s.respond r) = .next ((s.respond r).respond r) := by
  obtain ⟨t, ht, hagain⟩ := countIsNotRead i s (s.cmdidx + 1) (some r)
  obtain rfl := Host.Outcome.next.inj (h.symm.trans ht)
  exact hagain

/-! ## `SETIV` (R121, R164) -/

theorem exec_setiv_of_eight {iv : Bytes} (h : iv.length = 8) (s : State) :
    exec (.setiv iv) s = .next ((s.loadIv (blockOf iv)).finish []) := by
  rw [exec_eq_complete, bodyOf, setivBody_of_eight h, complete_ok]

theorem exec_setiv_of_other {iv : Bytes} (h : iv.length ≠ 8) (s : State) :
    exec (.setiv iv) s = .next (s.raiseError .ivlen) := by
  rw [exec_eq_complete, bodyOf, setivBody_of_other h, complete_error]

end Sys2Proof.Machine

open Sys2Proof Sys2Proof.Machine

/-! ## The obligations -/

/-- Settles O43: each command only responds, so the second one finds what the first one found. -/
theorem discontinuousIsolation : Obligations.DiscontinuousIsolation := by
  intro d s hc hl
  obtain ⟨r, henc⟩ := exec_encrypt_discontinuous d hc hl
  obtain ⟨q, hdec⟩ := exec_decrypt_discontinuous d hc hl
  exact ⟨⟨_, _, henc, exec_respond_again henc, rfl, registers_respond s r⟩,
    ⟨_, _, hdec, exec_respond_again hdec, rfl, registers_respond s q⟩⟩

/-- Settles O45: every register outside the chain of `ENCRYPT` is as it was, by its one write. -/
theorem encryptFrame : Obligations.EncryptFrame := by
  intro d s
  obtain ⟨e, a, b, c, r, hexec, slot, stages⟩ := exec_encrypt_writes d s
  exact ⟨_, hexec, rfl, rfl, rfl, ⟨rfl, rfl, rfl, rfl⟩, rfl, rfl, rfl, rfl, rfl, rfl, rfl, slot, stages⟩

/-- Settles O46: every register outside the chain of `DECRYPT` is as it was, by its one write. -/
theorem decryptFrame : Obligations.DecryptFrame := by
  intro d s
  obtain ⟨x, a, b, c, r, hexec, slot, stages⟩ := exec_decrypt_writes d s
  exact ⟨_, hexec, rfl, rfl, rfl, ⟨rfl, rfl, rfl, rfl⟩, rfl, rfl, rfl, rfl, rfl, rfl, rfl, slot, stages⟩

/-- Settles O14: the rule of `ENCONT`, then the end of the command with `OK`. -/
theorem encontSetsConten : Obligations.EncontSetsConten := exec_eq_complete .encont

/-- Settles O15: the rule of `DISCONT`, then the end of the command with `OK`. -/
theorem discontRewinds : Obligations.DiscontRewinds := exec_eq_complete .discont

/-- Settles O16: 8 bytes are the block that is loaded, and another length raises the error. -/
theorem setivLoadsOrRejects : Obligations.SetivLoadsOrRejects := fun iv s =>
  ⟨fun h => ⟨blockOf iv, blockBytes_blockOf h, exec_setiv_of_eight h s⟩, fun h => exec_setiv_of_other h s⟩

end

section
/-! The TripleCipherEngine (`44_ede3_engine.md`): `ENCRYPT` and `DECRYPT` outside the cascade, in ECB (R134, R137) and in CBC (R135,
R138). The properties of streams (R141, R143) hold of both modes at once: ECB is taken as a chain whose value no block reads. -/

namespace Sys2Proof.Machine

/-! ## Block by block -/

/-- As many blocks as a whole number of blocks holds, written out, are as many bytes. -/
theorem length_ofBlocks_eq {bs : List Block} {d : Bytes} (hbs : bs.length = (toBlocks d).length) (hd : d.length % 8 = 0) :
    (ofBlocks bs).length = d.length := by
  rw [length_ofBlocks, hbs, length_toBlocks]
  omega

/-- A ciphertext block of a chain is determined by its plaintext block and the block before it (R135). -/
theorem getElem?_cbcEncryptLoop (f : Block → Block) (x : Block) (m : List Block) (i : Nat) :
    (cbcEncryptLoop f x m).1[i]? =
      m[i]?.bind fun p => (x :: (cbcEncryptLoop f x m).1)[i]?.map fun y => f (xorBlock p y) := by
  cases hp : m[i]? with
  | none =>
    have hlen := List.getElem?_eq_none_iff.mp hp
    exact List.getElem?_eq_none (by rwa [length_cbcEncryptLoop])
  | some p =>
    obtain ⟨hlen, -⟩ := List.getElem?_eq_some_iff.mp hp
    have hy : i < (x :: (cbcEncryptLoop f x m).1).length := by rw [List.length_cons, length_cbcEncryptLoop]; omega
    rw [List.getElem?_eq_getElem hy]
    exact cbcEncryptLoop_block f hp (List.getElem?_eq_getElem hy)

section Propagation

variable {f : Block → Block} {x : Block} {m m' : List Block} {i : Nat} (heq : ∀ j, j < i → m[j]? = m'[j]?)
include heq

/-- Messages that agree before block `i` have the same chain up to the value that block `i` reads. -/
theorem cbcEncryptLoop_chain_eq : ∀ j, j ≤ i →
    (x :: (cbcEncryptLoop f x m).1)[j]? = (x :: (cbcEncryptLoop f x m').1)[j]?
  | 0, _ => rfl
  | j + 1, hj => by
    rw [List.getElem?_cons_succ, List.getElem?_cons_succ, getElem?_cbcEncryptLoop, getElem?_cbcEncryptLoop f x m',
      heq j hj, cbcEncryptLoop_chain_eq j (Nat.le_of_succ_le hj)]

/-- A first difference in plaintext block `i` changes ciphertext block `i` (R142): both are chained to the same value. -/
theorem cbcEncryptLoop_block_ne (hf : Function.Injective f) {p p' : Block} (hp : m[i]? = some p) (hp' : m'[i]? = some p')
    (hne : p ≠ p') : (cbcEncryptLoop f x m).1[i]? ≠ (cbcEncryptLoop f x m').1[i]? := by
  obtain ⟨hlen, -⟩ := List.getElem?_eq_some_iff.mp hp
  have hy := List.getElem?_eq_getElem (l := x :: (cbcEncryptLoop f x m).1) (i := i)
    (by rw [List.length_cons, length_cbcEncryptLoop]; omega)
  have hy' := (cbcEncryptLoop_chain_eq (f := f) (x := x) heq i le_rfl).symm.trans hy
  rw [cbcEncryptLoop_block f hp hy, cbcEncryptLoop_block f hp' hy']
  exact fun h => hne (xorBlock_left_injective (hf (Option.some.inj h)))

end Propagation

theorem encryptBlock_injective {P : Params} (hP : P.Inverse) (s : State) : Function.Injective (encryptBlock P s) :=
  Function.LeftInverse.injective (decryptBlock_encryptBlock hP s)

/-! ## What `ENCRYPT` answers outside the cascade -/

/-- The whole blocks that `ENCRYPT` runs over outside the cascade: padded if `PADEN = 1`, then zero-extended (R133). -/
def message (s : State) (d : Bytes) : Bytes := zext8 (if s.paden then pad d else d)

theorem message_aligned (s : State) (d : Bytes) : (message s d).length % 8 = 0 := by
  rw [message, length_zext8]
  omega

theorem message_padded (d : Bytes) {s : State} (hp : s.paden = true) : message s d = pad d := by
  rw [message, if_pos hp, zext8_pad]

theorem message_unpadded (d : Bytes) {s : State} (hp : s.paden = false) : message s d = zext8 d := by
  simp [message, hp]

theorem encryptInput_eq_message (d : Bytes) {s : State} (hl : legacyActive s = false) :
    encryptInput s d = toBlocks (message s d) := by
  rw [encryptInput, paddingApplies_of_not_legacy hl, message]

theorem exec_encrypt_ecb (d : Bytes) {s : State} (hk : s.keyclass ≠ .none) (hm : s.mode = .ecb) :
    exec (.encrypt d) s = .next (s.finish (ofBlocks (ecbEncrypt Config.params s (toBlocks (message s d))))) := by
  rw [exec_eq_complete, bodyOf, encryptBody_ecb _ _ hk hm, encryptInput_eq_message d (ecb_paths hm), complete_ok]

theorem exec_encrypt_cbc (d : Bytes) {s : State} (hk : s.keyclass ≠ .none) (hc : cbcMode s = true) :
    exec (.encrypt d) s = .next ((storeEnciv s (cbcEncrypt Config.params s (toBlocks (message s d))).2).finish
      (ofBlocks (cbcEncrypt Config.params s (toBlocks (message s d))).1)) := by
  obtain ⟨hl, hm⟩ := cbcMode_paths hc
  rw [exec_eq_complete, bodyOf, encryptBody_cbc _ _ hk hl hm, encryptInput_eq_message d hl, complete_ok]

theorem paden_storeEnciv (s : State) (v : Block) : (storeEnciv s v).paden = s.paden := by
  unfold storeEnciv
  split <;> rfl

/-! ## What `DECRYPT` answers outside the cascade -/

section DecryptEndings

variable (d : Bytes) {s : State} (hk : s.keyclass ≠ .none) (hl : legacyActive s = false)
include hk hl

/-- The buffer is the output when `PADEN = 0` (R136). -/
theorem exec_decrypt_unpadded (hp : s.paden = false) : exec (.decrypt d) s =
    .next ((decryptBuffer Config.params d s).1.finish (decryptBuffer Config.params d s).2) := by
  rw [exec_eq_complete, bodyOf, decryptBody_unpadded _ _ hk hl hp, complete_ok]

/-- What `unpad` leaves of the buffer is the output when `PADEN = 1` (R136). -/
theorem exec_decrypt_stripped {out : Bytes} (hp : s.paden = true)
    (hu : unpad Config.padPolicy (decryptBuffer Config.params d s).2 = .ok out) :
    exec (.decrypt d) s = .next ((decryptBuffer Config.params d s).1.finish out) := by
  have hu' : unpad Config.params.padPolicy _ = _ := hu
  rw [exec_eq_complete, bodyOf, decryptBody_padded _ _ hk hl hp, hu', Except.map, complete_ok]

/-- An error of `unpad` is `ERR_PAD`, and nothing is written (R136, R165). -/
theorem exec_decrypt_badPadding {e : CmdError} (hp : s.paden = true)
    (hu : unpad Config.padPolicy (decryptBuffer Config.params d s).2 = .error e) :
    exec (.decrypt d) s = .next (s.raiseError .pad) := by
  obtain rfl := unpad_error hu
  have hu' : unpad Config.params.padPolicy _ = _ := hu
  rw [exec_eq_complete, bodyOf, decryptBody_padded _ _ hk hl hp, hu', Except.map, complete_error]

end DecryptEndings

/-! ## LEGACY with a short key -/

/-- The state with `MODE` set to LEGACY. -/
def State.asLegacy (s : State) : State := { s with mode := .legacy }

theorem legacyActive_asLegacy {s : State} (hk : s.keyclass = .single) : legacyActive s.asLegacy = false := by
  simp [legacyActive, State.asLegacy, hk]

theorem storeEnciv_asLegacy (s : State) (v : Block) : storeEnciv s.asLegacy v = (storeEnciv s v).asLegacy := by
  rw [storeEnciv, storeEnciv, apply_ite State.asLegacy]
  rfl

theorem storeDeciv_asLegacy (s : State) (v : Block) : storeDeciv s.asLegacy v = (storeDeciv s v).asLegacy := by
  rw [storeDeciv, storeDeciv, apply_ite State.asLegacy]
  rfl

/-- A rule that computes the same but for `MODE` ends the same but for `MODE`. -/
theorem complete_asLegacy {s t : State} {r : Result} (h : complete s r = .next t) :
    complete s.asLegacy (r.map fun p => (p.1.asLegacy, p.2)) = .next t.asLegacy := by
  rcases complete_cases s r with ⟨u, out, rfl, hn⟩ | ⟨e, rfl, hn⟩ <;> cases h.symm.trans hn <;> rfl

section ShortKey

variable (P : Params) (d : Bytes) {s : State} (hk : s.keyclass = .single) (hm : s.mode = .cbc)
include hm

/-- The block transforms, the start values and the input blocks of CBC do not depend on which of the two modes it is. -/
theorem decryptBuffer_asLegacy :
    decryptBuffer P d s.asLegacy = ((decryptBuffer P d s).1.asLegacy, (decryptBuffer P d s).2) := by
  rw [decryptBuffer_cbc P d (s := s) (by simp [hm]), decryptBuffer_cbc P d (s := s.asLegacy) nofun, storeDeciv_asLegacy]
  rfl

include hk

theorem encryptBody_asLegacy :
    encryptBody P d s.asLegacy = (encryptBody P d s).map fun p => (p.1.asLegacy, p.2) := by
  have hkey : s.keyclass ≠ .none := by rw [hk]; decide
  have hl : legacyActive s = false := legacyActive_eq_false_of_mode (by simp [hm])
  have hl' := legacyActive_asLegacy hk
  rw [encryptBody_cbc P d hkey hl (by simp [hm]), encryptBody_cbc P d (s := s.asLegacy) hkey hl' nofun,
    storeEnciv_asLegacy, encryptInput_eq_message d hl, encryptInput_eq_message d hl']
  rfl

theorem decryptBody_asLegacy :
    decryptBody P d s.asLegacy = (decryptBody P d s).map fun p => (p.1.asLegacy, p.2) := by
  have hkey : s.keyclass ≠ .none := by rw [hk]; decide
  have hl : legacyActive s = false := legacyActive_eq_false_of_mode (by simp [hm])
  have hl' := legacyActive_asLegacy hk
  cases hp : s.paden with
  | false =>
    rw [decryptBody_unpadded P d hkey hl hp, decryptBody_unpadded P d (s := s.asLegacy) hkey hl' hp,
      decryptBuffer_asLegacy P d hm]
    rfl
  | true =>
    rw [decryptBody_padded P d hkey hl hp, decryptBody_padded P d (s := s.asLegacy) hkey hl' hp,
      decryptBuffer_asLegacy P d hm]
    cases unpad P.padPolicy (decryptBuffer P d s).2 <;> rfl

end ShortKey

/-! ## ECB and CBC as one chain -/

/-- `ENCRYPT` outside the cascade from the running value `x`: the ciphertext blocks and the final running value, which in ECB is
read and written by nothing. -/
def encryptChain (P : Params) (s : State) (x : Block) (m : List Block) : List Block × Block :=
  if s.mode = .ecb then (ecbEncrypt P s m, x) else cbcEncryptLoop (encryptBlock P s) x m

/-- `DECRYPT` outside the cascade from the running value `x`: the buffer and the final running value. -/
def decryptChain (P : Params) (s : State) (x : Block) (m : List Block) : List Block × Block :=
  if s.mode = .ecb then (ecbDecrypt P s m, x) else cbcDecryptLoop (decryptBlock P s) x m

/-- The chain reads the mode and the key only. -/
theorem encryptChain_congr {P : Params} {s s' : State} (hm : s'.mode = s.mode) (hb : encryptBlock P s' = encryptBlock P s) :
    encryptChain P s' = encryptChain P s := by
  funext x m
  simp only [encryptChain, ecbEncrypt, hm, hb]

theorem encryptChain_append (P : Params) (s : State) (x : Block) (m n : List Block) :
    encryptChain P s x (m ++ n) =
      ((encryptChain P s x m).1 ++ (encryptChain P s (encryptChain P s x m).2 n).1,
        (encryptChain P s (encryptChain P s x m).2 n).2) := by
  by_cases h : s.mode = .ecb
  · simp only [encryptChain, if_pos h, ecbEncrypt, List.map_append]
  · simp only [encryptChain, if_neg h, cbcEncryptLoop_append]

/-- Decrypting with the same key what a chain encrypted, from the same value, gives the blocks back, and both chains end alike. -/
theorem decryptChain_encryptChain {P : Params} (hP : P.Inverse) {s s' : State} (hm : s'.mode = s.mode)
    (hb : decryptBlock P s' = decryptBlock P s) (x : Block) (m : List Block) :
    decryptChain P s' x (encryptChain P s x m).1 = (m, (encryptChain P s x m).2) := by
  have hinv := decryptBlock_encryptBlock hP s
  by_cases h : s.mode = .ecb
  · simp [encryptChain, decryptChain, ecbEncrypt, ecbDecrypt, hm, hb, h, Function.comp_def, hinv]
  · simp only [encryptChain, decryptChain, hm, hb, if_neg h, cbcDecryptLoop_cbcEncryptLoop hinv]

/-- The chain of one `ENCRYPT` (R133). -/
def encryptRun (s : State) (d : Bytes) : List Block × Block :=
  encryptChain Config.params s (encStart s) (toBlocks (message s d))

/-- `ENCRYPT` outside the cascade, in ECB and in CBC. -/
theorem exec_encrypt_chain (d : Bytes) {s : State} (hk : s.keyclass ≠ .none) (hl : legacyActive s = false) :
    exec (.encrypt d) s = .next ((storeEnciv s (encryptRun s d).2).finish (ofBlocks (encryptRun s d).1)) := by
  rcases paths s hk with hl' | ⟨-, hm⟩ | ⟨-, hm, hc⟩
  · rw [hl] at hl'; cases hl'
  · have hslot : storeEnciv s (encStart s) = s := by
      unfold storeEnciv encStart
      split <;> rfl
    rw [exec_encrypt_ecb d hk hm, encryptRun, encryptChain, if_pos hm, hslot]
  · rw [exec_encrypt_cbc d hk hc, encryptRun, encryptChain, if_neg hm, cbcEncrypt]

/-- The buffer and the registers of a `DECRYPT` outside the cascade, in ECB and in CBC. -/
theorem decryptBuffer_chain (P : Params) (d : Bytes) (s : State) : decryptBuffer P d s =
    (storeDeciv s (decryptChain P s (decStart s) (decryptInput d)).2,
      ofBlocks (decryptChain P s (decStart s) (decryptInput d)).1) := by
  by_cases hm : s.mode = .ecb
  · have hslot : storeDeciv s (decStart s) = s := by
      unfold storeDeciv decStart
      split <;> rfl
    rw [decryptBuffer_ecb P d hm, decryptChain, if_pos hm, hslot]
  · rw [decryptBuffer_cbc P d hm, decryptChain, if_neg hm, cbcDecrypt]

/-! ## States with the same key -/

section SameKey

variable {s s' : State} (h : SameKey s s')
include h

/-- A state that takes the key over from another agrees with it on what the block transforms read. -/
theorem configAgree_of_sameKey :
    ConfigAgree s { s with keyclass := s'.keyclass, k1 := s'.k1, k2 := s'.k2, k3 := s'.k3 } := by
  obtain ⟨hc, h1, h2, h3⟩ := h
  exact ⟨rfl, rfl, rfl, rfl, hc.symm, fun _ => h1.symm, fun _ => ⟨h2.symm, h3.symm⟩⟩

theorem encryptBlock_of_sameKey (P : Params) : encryptBlock P s' = encryptBlock P s :=
  (configAgree_of_sameKey h).encryptBlock_eq P

theorem decryptBlock_of_sameKey (P : Params) : decryptBlock P s' = decryptBlock P s :=
  (configAgree_of_sameKey h).decryptBlock_eq P

theorem legacyActive_of_sameKey (hm : s'.mode = s.mode) : legacyActive s' = legacyActive s := by
  simp only [legacyActive, hm, h.1]

end SameKey

/-- Outside the cascade two engines in the same mode, with the same padding flag and start value, answer an `ENCRYPT` alike if their
block transforms are the same function, whatever their keys. -/
theorem encryptRun_congr (d : Bytes) {s s' : State} (hm : s'.mode = s.mode) (hp : s'.paden = s.paden)
    (hx : encStart s' = encStart s) (hb : encryptBlock Config.params s' = encryptBlock Config.params s) :
    encryptRun s' d = encryptRun s d := by
  rw [encryptRun, encryptRun, encryptChain_congr hm hb, hx, message, message, hp]

/-! ## Keys of one and of two blocks (R145) -/

theorem deriveSubKeys_oneBlock (a : Block) : deriveSubKeys (blockBytes a) = .single a :=
  deriveSubKeys_short (raw := blockBytes a) (by simp)

theorem deriveSubKeys_twoBlocks (a b : Block) : deriveSubKeys (blockBytes a ++ blockBytes b) = .triple a b a :=
  deriveSubKeys_twoKey (raw := blockBytes a ++ blockBytes b) (by simp) (by simp)

/-- With all sub-keys equal the first two calls of the primitive cancel, and the third is single DES. -/
theorem encryptBlock_equalKeys {P : Params} (hP : P.Inverse) {s : State} (hk : s.keyclass = .triple) (h2 : s.k2 = s.k1)
    (h3 : s.k3 = s.k1) (p : Block) : encryptBlock P s p = P.desE s.k1 p := by
  rw [encryptBlock_triple P hk, h2, h3, hP.dec_enc]

/-! ## Sequences of commands with all their outputs -/

/-- The responses with status `OK` and these outputs. -/
def okResponses (outs : List Bytes) : List Response := outs.map (Response.mk statusOk)

theorem allOk_okResponses (outs : List Bytes) : AllOk (okResponses outs) :=
  List.forall_mem_map.mpr fun _ _ => rfl

@[simp] theorem map_out_okResponses (outs : List Bytes) : (okResponses outs).map Response.out = outs := by
  simp [okResponses, Function.comp_def]

@[simp] theorem outputs_okResponses (outs : List Bytes) : outputs (okResponses outs) = outs.flatten := by
  induction outs with
  | nil => rfl
  | cons out outs ih => exact congrArg (out ++ ·) ih

/-- A sequence goes on after a command that answered `OK`, whose output comes first. -/
theorem session_cons_okResponses {i : Instr} {is : List Instr} {s t u : State} {out : Bytes} {outs : List Bytes}
    (h : exec i s = .next t) (hr : t.response = some ⟨statusOk, out⟩) (hs : session is t = some (u, okResponses outs)) :
    session (i :: is) s = some (u, okResponses (out :: outs)) := by
  simp [session, h, hr, hs, okResponses]

/-! ## Encrypting on one engine and decrypting on another (R141) -/

/-- Two engines outside the cascade with the same configuration, the encrypting slot of the one equal to the decrypting slot of the
other where the slots are in use. -/
structure Paired (s s' : State) : Prop where
  keyed : s.keyclass ≠ .none
  outside : legacyActive s = false
  mode : s'.mode = s.mode
  key : SameKey s s'
  paden : s'.paden = s.paden
  conten : s'.conten = s.conten
  baseiv : s'.baseiv = s.baseiv
  slot : s.conten = true → s.enciv = s'.deciv

/-- What comes back of a chunk: the chunk itself if it was padded, otherwise its zero extension. -/
def recovered (paden : Bool) (p : Bytes) : Bytes := if paden then p else zext8 p

theorem map_recovered (paden : Bool) (ps : List Bytes) :
    ps.map (recovered paden) = if paden then ps else ps.map zext8 := by
  cases paden with
  | false => rfl
  | true => exact List.map_id ps

section Paired

variable {s s' : State} (h : Paired s s')
include h

theorem Paired.decStart_eq : decStart s' = encStart s := by
  cases hc : s.conten with
  | false => simp [decStart, encStart, h.conten, hc, h.baseiv]
  | true => simp [decStart, encStart, h.conten, hc, h.slot hc]

/-- The decrypting engine recovers the message, and its chain ends as the other's (R141). -/
theorem Paired.decryptBuffer_eq (p : Bytes) : decryptBuffer Config.params (ofBlocks (encryptRun s p).1) s' =
    (storeDeciv s' (encryptRun s p).2, message s p) := by
  have hinv := decryptChain_encryptChain Config.params_inverse h.mode (decryptBlock_of_sameKey h.key Config.params)
  rw [decryptBuffer_chain, decryptInput, zext8_ofBlocks, toBlocks_ofBlocks, h.decStart_eq, encryptRun, hinv,
    ofBlocks_toBlocks _ (message_aligned s p)]

/-- The padding that `ENCRYPT` appended is removed under both policies. -/
theorem Paired.exec_decrypt (p : Bytes) : exec (.decrypt (ofBlocks (encryptRun s p).1)) s' =
    .next ((storeDeciv s' (encryptRun s p).2).finish (recovered s.paden p)) := by
  have hk : s'.keyclass ≠ .none := h.key.1 ▸ h.keyed
  have hl : legacyActive s' = false := (legacyActive_of_sameKey h.key h.mode).trans h.outside
  have hbuf := h.decryptBuffer_eq p
  cases hp : s.paden with
  | false =>
    rw [exec_decrypt_unpadded _ hk hl (h.paden.trans hp), hbuf, message_unpadded p hp]
    rfl
  | true =>
    have hu : unpad Config.padPolicy (decryptBuffer Config.params (ofBlocks (encryptRun s p).1) s').2 = .ok p := by
      rw [hbuf, message_padded p hp, unpad_pad]
    rw [exec_decrypt_stripped _ hk hl (h.paden.trans hp) hu, hbuf]
    rfl

/-- After a chunk the engines are paired again: with `CONTEN = 1` both slots hold the last value of the chain. -/
theorem Paired.next (p : Bytes) : Paired ((storeEnciv s (encryptRun s p).2).finish (ofBlocks (encryptRun s p).1))
    ((storeDeciv s' (encryptRun s p).2).finish (recovered s.paden p)) := by
  rw [storeEnciv_finish, storeDeciv_finish]
  refine ⟨h.keyed, h.outside, h.mode, h.key, h.paden, h.conten, h.baseiv, fun (hc : s.conten = true) => ?_⟩
  simp [hc, h.conten]

end Paired

/-- A sequence of chunks, by induction: each comes back, and the engines stay paired. -/
theorem Paired.roundTrip {s s' : State} (h : Paired s s') (ps : List Bytes) : ∃ t t' cs,
    session (ps.map Instr.encrypt) s = some (t, okResponses cs) ∧
    session (cs.map Instr.decrypt) s' = some (t', okResponses (ps.map (recovered s.paden))) := by
  induction ps generalizing s s' with
  | nil => exact ⟨s, s', [], rfl, rfl⟩
  | cons p ps ih =>
    obtain ⟨t, t', cs, henc, hdec⟩ := ih (h.next p)
    rw [State.paden_finish, paden_storeEnciv] at hdec
    exact ⟨t, t', ofBlocks (encryptRun s p).1 :: cs, session_cons_okResponses (exec_encrypt_chain p h.keyed h.outside) rfl henc,
      session_cons_okResponses (h.exec_decrypt p) rfl hdec⟩

/-! ## A continuous stream of chunks (R143) -/

/-- The chain reads neither the slot nor what the end of a command writes. -/
theorem encryptChain_setEnciv_finish (P : Params) (s : State) (v : Block) (out : Bytes) :
    encryptChain P ((s.setEnciv v).finish out) = encryptChain P s := rfl

theorem encryptChain_setPaden_finish (P : Params) (s : State) (v : Bool) (out : Bytes) :
    encryptChain P ((s.setPaden v).finish out) = encryptChain P s := rfl

/-- With `CONTEN = 1` an `ENCRYPT` takes the chain up from the slot (R120). -/
theorem encryptRun_continuous (d : Bytes) {s : State} (hc : s.conten = true) :
    encryptRun s d = encryptChain Config.params s s.enciv (toBlocks (message s d)) := by
  rw [encryptRun, encStart, if_pos hc]

/-- Chunks of whole blocks, unpadded, and a padded last chunk are one chain over all their blocks: each chunk takes the chain up
where the one before it left it. -/
theorem session_stream (ps : List Bytes) (last : Bytes) {s : State} (hk : s.keyclass ≠ .none) (hl : legacyActive s = false)
    (hc : s.conten = true) (hp : s.paden = false) (hps : ∀ p ∈ ps, p.length % 8 = 0) : ∃ t cs,
    session (ps.map Instr.encrypt ++ [.enpad, .encrypt last]) s = some (t, okResponses cs) ∧
    cs.flatten = ofBlocks (encryptChain Config.params s s.enciv (toBlocks ps.flatten ++ toBlocks (pad last))).1 := by
  induction ps generalizing s with
  | nil =>
    let padded := (s.setPaden true).finish []
    have hexec := exec_encrypt_chain last (s := padded) hk hl
    refine ⟨_, [[], _], session_cons_okResponses (i := .enpad) rfl rfl (session_cons_okResponses hexec rfl rfl), ?_⟩
    rw [encryptRun_continuous (s := padded) last hc, message_padded (s := padded) last rfl, encryptChain_setPaden_finish]
    exact List.append_nil _
  | cons p ps ih =>
    obtain ⟨hpa, hpsa⟩ := List.forall_mem_cons.mp hps
    have hexec := exec_encrypt_chain p hk hl
    rw [storeEnciv, if_pos hc] at hexec
    obtain ⟨t, cs, hs, hcs⟩ := ih (s := (s.setEnciv (encryptRun s p).2).finish (ofBlocks (encryptRun s p).1)) hk hl hc hp hpsa
    refine ⟨t, _, session_cons_okResponses hexec rfl hs, ?_⟩
    have hrun : encryptRun s p = encryptChain Config.params s s.enciv (toBlocks p) := by
      rw [encryptRun_continuous p hc, message_unpadded p hp, zext8_of_aligned hpa]
    rw [List.flatten_cons, hcs, encryptChain_setEnciv_finish, State.enciv_finish, State.enciv_setEnciv, hrun,
      List.flatten_cons, toBlocks_append _ _ hpa, List.append_assoc, encryptChain_append _ _ _ (toBlocks p), ofBlocks_append]

theorem length_flatten_aligned {ps : List Bytes} (hps : ∀ p ∈ ps, p.length % 8 = 0) : ps.flatten.length % 8 = 0 := by
  induction ps with
  | nil => rfl
  | cons p ps ih =>
    obtain ⟨hp, hps⟩ := List.forall_mem_cons.mp hps
    rw [List.flatten_cons, List.length_append, Nat.add_mod, hp, ih hps]

/-- Whole blocks in front do not change the padding (R110). -/
theorem pad_append {d : Bytes} (hd : d.length % 8 = 0) (e : Bytes) : pad (d ++ e) = d ++ pad e := by
  have hlen : (d ++ e).length % 8 = e.length % 8 := by rw [List.length_append]; omega
  rw [pad_eq_append, pad_eq_append, hlen, List.append_assoc]

/-- One padded `ENCRYPT` over whole blocks and a rest is one chain over the blocks and the padded rest. -/
theorem encryptRun_append {d : Bytes} (hd : d.length % 8 = 0) (e : Bytes) {s : State} (hp : s.paden = true) :
    encryptRun s (d ++ e) = encryptChain Config.params s (encStart s) (toBlocks d ++ toBlocks (pad e)) := by
  rw [encryptRun, message_padded _ hp, pad_append hd, toBlocks_append _ _ hd]

end Sys2Proof.Machine

open Sys2Proof Sys2Proof.Machine

/-! ## The obligations -/

/-- Settles O28: ECB maps the block transform over the message. -/
theorem encryptEcbBlocks : Obligations.EncryptEcbBlocks := by
  intro d s hk hm
  refine ⟨ofBlocks (ecbEncrypt Config.params s (toBlocks (message s d))),
    length_ofBlocks_eq (List.length_map _) (message_aligned s d), fun i => ?_, exec_encrypt_ecb d hk hm⟩
  rw [toBlocks_ofBlocks, ecbEncrypt, List.getElem?_map]
  rfl

/-- Settles O29: the chain of CBC, block by block, and its last value. -/
theorem encryptCbcChain : Obligations.EncryptCbcChain := by
  intro d s hk hc
  refine ⟨_, _, length_ofBlocks_eq (length_cbcEncryptLoop _ _ _) (message_aligned s d), ?_, ?_,
    (exec_encrypt_cbc d hk hc).trans (congrArg _ (storeEnciv_finish _ _ _))⟩
  · rw [toBlocks_ofBlocks]
    exact fun i p x => cbcEncryptLoop_block _
  · rw [toBlocks_ofBlocks]
    exact cbcEncryptLoop_last _ _ _

/-- Settles O30: the buffer of ECB, then the three endings of `DECRYPT`. -/
theorem decryptEcbBlocks : Obligations.DecryptEcbBlocks := by
  intro c s hk hm
  have hl := ecb_paths hm
  have hbuf := decryptBuffer_ecb Config.params c hm
  have hregs : (decryptBuffer Config.params c s).1 = s := congrArg Prod.fst hbuf
  refine ⟨(decryptBuffer Config.params c s).2, length_decryptBuffer _ c s, fun i => ?_,
    fun hp => (exec_decrypt_unpadded c hk hl hp).trans ?_, fun out hp hu => (exec_decrypt_stripped c hk hl hp hu).trans ?_,
    fun e hp hu => exec_decrypt_badPadding c hk hl hp hu⟩
  · rw [hbuf, toBlocks_ofBlocks, ecbDecrypt, List.getElem?_map, decryptInput]
  · rw [hregs]; rfl
  · rw [hregs]; rfl

/-- Settles O31: the buffer of CBC, block by block, then the three endings of `DECRYPT`. -/
theorem decryptCbcChain : Obligations.DecryptCbcChain := by
  intro c s hk hc
  obtain ⟨hl, hm⟩ := cbcMode_paths hc
  have hbuf := decryptBuffer_cbc Config.params c hm
  have hregs : (decryptBuffer Config.params c s).1 = _ := congrArg Prod.fst hbuf
  refine ⟨(decryptBuffer Config.params c s).2, (cbcDecrypt Config.params s (decryptInput c)).2, length_decryptBuffer _ c s,
    ?_, cbcDecryptLoop_last _ _ _, fun hp => (exec_decrypt_unpadded c hk hl hp).trans ?_,
    fun out hp hu => (exec_decrypt_stripped c hk hl hp hu).trans ?_, fun e hp hu => exec_decrypt_badPadding c hk hl hp hu⟩
  · rw [hbuf, toBlocks_ofBlocks]
    exact fun i p x => cbcDecryptLoop_block _
  · rw [hregs, storeDeciv_finish]; rfl
  · rw [hregs, storeDeciv_finish]; rfl

/-- Settles O32: ECB is a map, and in CBC messages with a common beginning chain to the same value. -/
theorem ecbIndependenceCbcPropagation : Obligations.EcbIndependenceCbcPropagation := by
  refine ⟨fun d s hk hm => ⟨_, _, exec_encrypt_ecb d hk hm, rfl, fun i j hij => ?ecb⟩,
    fun d d' s i p p' hk hc heq hp hp' hne =>
      ⟨_, _, _, _, exec_encrypt_cbc d hk hc, rfl, exec_encrypt_cbc d' hk hc, rfl, fun j hj => ?before, ?block⟩⟩
  case ecb =>
    rw [toBlocks_ofBlocks, ecbEncrypt, List.getElem?_map, List.getElem?_map]
    exact congrArg (Option.map _) hij
  case before =>
    rw [toBlocks_ofBlocks, toBlocks_ofBlocks]
    exact cbcEncryptLoop_chain_eq heq (j + 1) hj
  case block =>
    rw [toBlocks_ofBlocks, toBlocks_ofBlocks]
    exact cbcEncryptLoop_block_ne heq (encryptBlock_injective Config.params_inverse s) hp hp' hne

/-- Settles O38: both rules compute the same in the two modes, and outside the cascade no stage register is written. -/
theorem legacyShortKeyIsCbc : Obligations.LegacyShortKeyIsCbc := by
  intro d s hk hm
  have hl : legacyActive s = false := legacyActive_eq_false_of_mode (by simp [hm])
  obtain ⟨e, a, b, c, r, henc, -, hstages⟩ := exec_encrypt_writes d s
  obtain ⟨x, a', b', c', q, hdec, -, hstages'⟩ := exec_decrypt_writes d s
  obtain ⟨rfl, rfl, rfl⟩ := hstages hl
  obtain ⟨rfl, rfl, rfl⟩ := hstages' hl
  refine ⟨_, _, henc, ?_, hdec, ?_, fun i => ⟨rfl, rfl, rfl, rfl⟩⟩
  · exact (congrArg (complete s.asLegacy) (encryptBody_asLegacy _ d hk hm)).trans (complete_asLegacy henc)
  · exact (congrArg (complete s.asLegacy) (decryptBody_asLegacy _ d hk hm)).trans (complete_asLegacy hdec)

/-- Settles O41: engines in the same configuration are paired, and stay so chunk by chunk. -/
theorem roundTrip : Obligations.RoundTrip := by
  refine ⟨fun ps s s' hk hl hm hkey hp hc hb hslot => ?_, zext8_eq_self_iff⟩
  obtain ⟨t, t', cs, henc, hdec⟩ := Paired.roundTrip ⟨hk, hl, hm, hkey, hp, hc, hb, hslot⟩ ps
  refine ⟨t, t', okResponses cs, okResponses (ps.map (recovered s.paden)), henc, allOk_okResponses cs, ?_,
    allOk_okResponses _, ?_⟩
  · rw [map_out_okResponses, hdec]
  · rw [map_out_okResponses, map_recovered]

/-- Settles O42: the chunks are one chain, which the padded last chunk goes on from where the blocks before it ended. -/
theorem continuousBufferEquivalence : Obligations.ContinuousBufferEquivalence := by
  intro ps last s s' hps hk hl hiv hm hkey hb hc hp
  have hl' : legacyActive s' = false := (legacyActive_of_sameKey hkey hm).trans hl
  have hchain := encryptChain_congr hm (encryptBlock_of_sameKey hkey Config.params)
  have hstart : encStart s' = s.enciv := by simp [encStart, hc, hb, hiv]
  obtain ⟨t, cs, hs, hcs⟩ := session_stream ps last
    (s := (((s.setConten true).finish []).setPaden false).finish []) hk hl rfl rfl hps
  refine ⟨t, _, okResponses ([] :: [] :: cs), ?_, allOk_okResponses _,
    exec_encrypt_chain (ps.flatten ++ last) (hkey.1 ▸ hk) hl', ?_⟩
  · rw [List.append_assoc]
    exact session_cons_okResponses (i := .encont) rfl rfl (session_cons_okResponses (i := .dispad) rfl rfl hs)
  · rw [encryptRun_append (length_flatten_aligned hps) last hp, hchain, hstart, outputs_okResponses]
    exact congrArg (fun out => some (Response.mk statusOk out)) hcs.symm

/-- Settles O21: with all sub-keys equal the block transform is that of the 8-byte key, and engines with the same block transform
answer alike. -/
theorem keyForms : Obligations.KeyForms := by
  intro a b s
  have hequal (r : Response) := encryptBlock_equalKeys Config.params_inverse (s := (s.loadTriple a a a).respond r) rfl rfl rfl
  refine ⟨⟨_, exec_setkey_triple (deriveSubKeys_twoBlocks a b) s, encryptBlock_triple _ rfl⟩, _, _, _,
    exec_setkey_triple (deriveSubKeys_twoBlocks a a) s, exec_setkey_triple (deriveSubKeys_blocks a a a) s,
    exec_setkey_single (deriveSubKeys_oneBlock a) s, fun p => ⟨hequal _ p, hequal _ p, encryptBlock_single _ rfl p⟩,
    fun hm d => ?_⟩
  let triple := (s.loadTriple a a a).respond ⟨statusOk, []⟩
  let single := (s.loadSingle a).respond ⟨statusOk, []⟩
  have htriple := exec_encrypt_chain d (s := triple) nofun (legacyActive_eq_false_of_mode hm)
  have hsingle := exec_encrypt_chain d (s := single) nofun (legacyActive_eq_false_of_mode hm)
  have hrun : encryptRun triple d = encryptRun single d := encryptRun_congr d rfl rfl rfl (funext (hequal _))
  have hresponse := congrArg (fun run => some (Response.mk statusOk (ofBlocks run.1))) hrun
  exact ⟨_, _, _, htriple, htriple, hsingle, hresponse, hresponse⟩

end

section
/-! The LegacyCascadeEngine (`45_legacy_cascade.md`): the three chained stages of a legacy-active `ENCRYPT` and `DECRYPT` (R151 to
R153), their block-serial form (R154), the pairs of stage registers (R158), and streams through the cascade (R157): a sequence of
chunks is one message, and `DECRYPT` undoes the stages in the reverse order. -/

namespace Sys2Proof.Machine

/-! ## What the data commands answer in the cascade -/

theorem exec_encrypt_legacy (d : Bytes) {s : State} (hl : legacyActive s = true) : exec (.encrypt d) s =
    .next ((legacyEncrypt Config.params d s).1.finish (legacyEncrypt Config.params d s).2) := by
  rw [exec_eq_complete, bodyOf, encryptBody_legacy _ _ hl, complete_ok]

theorem exec_decrypt_legacy (d : Bytes) {s : State} (hl : legacyActive s = true) : exec (.decrypt d) s =
    .next ((legacyDecrypt Config.params d s).1.finish (legacyDecrypt Config.params d s).2) := by
  rw [exec_eq_complete, bodyOf, decryptBody_legacy _ _ hl, complete_ok]

/-! ## The block-serial form (R154) -/

/-- Each running value is the chain of its own stage: stage 2 chains on its input, the output of stage 1. -/
theorem serialEncryptLoop_eq (P : Params) (s : State) (x : Running) (m : List Block) : serialEncryptLoop P s x m =
    (let t1 := cbcEncryptLoop (P.desE s.k1) x.x1 m
     let t2 := cbcDecryptLoop (P.desD s.k2) x.x2 t1.1
     let t3 := cbcEncryptLoop (P.desE s.k3) x.x3 t2.1
     (⟨t1.2, t2.2, t3.2⟩, t3.1)) := by
  induction m generalizing x with
  | nil => rfl
  | cons b bs ih => simp [serialEncryptLoop, cbcEncryptLoop, cbcDecryptLoop, ih]

/-- Each running value is the chain of its own stage: stages 3 and 1 chain on their inputs. -/
theorem serialDecryptLoop_eq (P : Params) (s : State) (x : Running) (m : List Block) : serialDecryptLoop P s x m =
    (let u3 := cbcDecryptLoop (P.desD s.k3) x.x3 m
     let u2 := cbcEncryptLoop (P.desE s.k2) x.x2 u3.1
     let u1 := cbcDecryptLoop (P.desD s.k1) x.x1 u2.1
     (⟨u1.2, u2.2, u3.2⟩, u1.1)) := by
  induction m generalizing x with
  | nil => rfl
  | cons c cs ih => simp [serialDecryptLoop, cbcEncryptLoop, cbcDecryptLoop, ih]

/-! ## The pairs of stage registers (R158) -/

/-- A decryptor that reads what an encryptor writes, from the same start value, ends its chain where the encryptor does, whatever
the two transforms: both chain on the blocks that pass between them. -/
theorem cbcDecryptLoop_chain_eq (f g : Block → Block) (x : Block) (m : List Block) :
    (cbcDecryptLoop g x (cbcEncryptLoop f x m).1).2 = (cbcEncryptLoop f x m).2 :=
  Option.some.inj ((cbcDecryptLoop_last g x _).symm.trans (cbcEncryptLoop_last f x m))

/-- Stages 1 and 2 write the same value (R158). -/
theorem legacyEncrypt_stagePairInv (P : Params) (d : Bytes) {s : State} (hs : StagePairInv s) :
    StagePairInv (legacyEncrypt P d s).1 := by
  obtain ⟨h12, h21⟩ := hs
  refine ⟨?_, h21⟩
  simp only [legacyEncrypt, legacyEncryptBlocks_eq, ← h12, cbcDecryptLoop_chain_eq]

/-- Stages 2 and 1 write the same value (R158). -/
theorem legacyDecrypt_stagePairInv (P : Params) (d : Bytes) {s : State} (hs : StagePairInv s) :
    StagePairInv (legacyDecrypt P d s).1 := by
  obtain ⟨h12, h21⟩ := hs
  refine ⟨h12, ?_⟩
  simp only [legacyDecrypt, legacyDecryptBlocks_eq, ← h21, cbcDecryptLoop_chain_eq]

/-- R158, command by command: `CONFIG` zeroes the stage registers, and in the cascade a data command writes both of a pair. -/
theorem bodyOf_stagePairInv {i : Instr} {s t : State} {out : Bytes} (h : bodyOf i s = .ok (t, out)) (hs : StagePairInv s) :
    StagePairInv t := by
  cases bodyOf_effect h with
  | config arg => exact ⟨rfl, rfl⟩
  | @encrypt data e a b c key slot stages =>
    cases hl : legacyActive s with
    | true =>
      have hcascade := (encryptBody_legacy Config.params data hl).symm.trans h
      have hregisters : (legacyEncrypt Config.params data s).1 = s.setEncryptChain e a b c :=
        congrArg Prod.fst (Except.ok.inj hcascade)
      rw [← hregisters]
      exact legacyEncrypt_stagePairInv Config.params data hs
    | false =>
      obtain ⟨rfl, rfl, rfl⟩ := stages hl
      exact hs
  | @decrypt data x a b c key slot stages =>
    cases hl : legacyActive s with
    | true =>
      have hcascade := (decryptBody_legacy Config.params data hl).symm.trans h
      have hregisters : (legacyDecrypt Config.params data s).1 = s.setDecryptChain x a b c :=
        congrArg Prod.fst (Except.ok.inj hcascade)
      rw [← hregisters]
      exact legacyDecrypt_stagePairInv Config.params data hs
    | false =>
      obtain ⟨rfl, rfl, rfl⟩ := stages hl
      exact hs
  | _ => exact hs

/-! ## The flags and the IVs (R152, R153) -/

/-- The state with other values in the flags and in the IV registers of ECB and CBC. -/
def State.setFlagsAndIvs (s : State) (paden conten : Bool) (baseiv enciv deciv : Block) : State :=
  { s with paden := paden, conten := conten, baseiv := baseiv, enciv := enciv, deciv := deciv }

section FlagsAndIvs

variable (P : Params) (d : Bytes) (s : State) (p c : Bool) (v e x : Block)

theorem legacyActive_setFlagsAndIvs : legacyActive (s.setFlagsAndIvs p c v e x) = legacyActive s := rfl

/-- The stages read the sub-keys and their own registers only. -/
theorem legacyEncrypt_setFlagsAndIvs : legacyEncrypt P d (s.setFlagsAndIvs p c v e x) =
    ((legacyEncrypt P d s).1.setFlagsAndIvs p c v e x, (legacyEncrypt P d s).2) := rfl

theorem legacyDecrypt_setFlagsAndIvs : legacyDecrypt P d (s.setFlagsAndIvs p c v e x) =
    ((legacyDecrypt P d s).1.setFlagsAndIvs p c v e x, (legacyDecrypt P d s).2) := rfl

end FlagsAndIvs

/-! ## Streams through the cascade -/

/-- What a data command of the cascade does, as far as its outputs go: it runs over the blocks of its zero-extended payload and
leaves the engine such that the next command goes on as if all blocks were one message (R151: the chains persist). -/
structure CascadeCommand (cmd : Bytes → Instr) (run : List Block → State → State × List Block) : Prop where
  answers : ∀ d {s}, legacyActive s = true → exec (cmd d) s =
    .next ((run (toBlocks (zext8 d)) s).1.finish (ofBlocks (run (toBlocks (zext8 d)) s).2))
  stays : ∀ m s, legacyActive (run m s).1 = legacyActive s
  nothing : ∀ s, (run [] s).2 = []
  continues : ∀ m n s out, (run (m ++ n) s).2 = (run m s).2 ++ (run n ((run m s).1.finish out)).2

theorem cascadeCommand_encrypt : CascadeCommand .encrypt (legacyEncryptBlocks Config.params) where
  answers := exec_encrypt_legacy
  stays _ _ := rfl
  nothing _ := rfl
  continues m n s out := by
    simp [legacyEncryptBlocks_eq, cbcEncryptLoop_append, cbcDecryptLoop_append]

theorem cascadeCommand_decrypt : CascadeCommand .decrypt (legacyDecryptBlocks Config.params) where
  answers := exec_decrypt_legacy
  stays _ _ := rfl
  nothing _ := rfl
  continues m n s out := by
    simp [legacyDecryptBlocks_eq, cbcEncryptLoop_append, cbcDecryptLoop_append]

/-- Chunks of whole blocks give the output of one command on all their blocks, however they are cut. -/
theorem CascadeCommand.session_chunks {cmd : Bytes → Instr} {run : List Block → State → State × List Block}
    (h : CascadeCommand cmd run) {ps : List Bytes} {s : State} (hl : legacyActive s = true)
    (hps : ∀ p ∈ ps, p.length % 8 = 0) : ∃ t cs,
    session (ps.map cmd) s = some (t, okResponses cs) ∧ cs.flatten = ofBlocks (run (toBlocks ps.flatten) s).2 := by
  induction ps generalizing s with
  | nil => exact ⟨s, [], rfl, (congrArg ofBlocks (h.nothing s)).symm⟩
  | cons p ps ih =>
    obtain ⟨hp, hps⟩ := List.forall_mem_cons.mp hps
    have hexec := h.answers p hl
    rw [zext8_of_aligned hp] at hexec
    obtain ⟨t, cs, hs, hcs⟩ := ih (s := (run (toBlocks p) s).1.finish (ofBlocks (run (toBlocks p) s).2))
      ((h.stays _ _).trans hl) hps
    refine ⟨t, _, session_cons_okResponses hexec rfl hs, ?_⟩
    rw [List.flatten_cons, hcs, List.flatten_cons, toBlocks_append _ _ hp, h.continues, ofBlocks_append]

/-- With the same key and each stage's chain at the same value on both sides, `DECRYPT` undoes stage 3, then 2, then 1. -/
theorem legacyDecryptBlocks_legacyEncryptBlocks {P : Params} (hP : P.Inverse) {s s' : State} (hkey : SameKey s s')
    (h1 : s'.sdec1 = s.senc1) (h2 : s'.senc2 = s.sdec2) (h3 : s'.sdec3 = s.senc3) (m : List Block) :
    (legacyDecryptBlocks P (legacyEncryptBlocks P m s).2 s').2 = m := by
  obtain ⟨-, hk1, hk2, hk3⟩ := hkey
  simp only [legacyEncryptBlocks_eq, legacyDecryptBlocks_eq, h1, h2, h3, ← hk1, ← hk2, ← hk3,
    cbcDecryptLoop_cbcEncryptLoop (hP.dec_enc _), cbcEncryptLoop_cbcDecryptLoop (hP.enc_dec _)]

/-! ## Bringing a LEGACY engine up -/

theorem deriveSubKeys_long {raw : Bytes} (h : 8 < raw.length) : ∃ a b c, deriveSubKeys raw = .triple a b c :=
  ⟨_, _, _, if_neg h.not_ge⟩

/-- A fresh LEGACY engine with these sub-keys: all that is left of the state before is the host's side and the count. -/
def State.legacyEngine (s : State) (a b c : Block) : State :=
  (((s.construct .legacy).finish []).loadTriple a b c).finish []

theorem session_legacyEngine {raw : Bytes} {a b c : Block} (h : deriveSubKeys raw = .triple a b c) (s : State) :
    session [.config 0x03, .setkey raw] s = some (s.legacyEngine a b c, okResponses [[], []]) :=
  session_cons_okResponses (exec_eq_complete (.config 0x03) s) rfl
    (session_cons_okResponses (exec_setkey_triple h _) rfl rfl)

end Sys2Proof.Machine

open Sys2Proof Sys2Proof.Machine

/-! ## The obligations -/

/-- Settles O56: `RESET` zeroes the stage registers, errors write none, and every rule keeps the pairs equal. -/
theorem stagePairsKept : Obligations.StagePairsKept := by
  intro s t hs h
  rcases step_cases s with ⟨-, hidle⟩ | ⟨a, es, -, hreset⟩ | ⟨c, es, e, -, -, hillegal⟩ | ⟨c, es, i, -, -, hexec⟩
  · cases hidle.symm.trans h; exact hs
  · cases hreset.symm.trans h; exact ⟨rfl, rfl⟩
  · cases hillegal.symm.trans h; exact hs
  · rcases exec_cases i (s.setPending es) with ⟨u, out, hbody, hnext⟩ | ⟨e, -, hnext⟩
    · cases (hexec.trans hnext).symm.trans h; exact (bodyOf_stagePairInv hbody hs : StagePairInv u)
    · cases (hexec.trans hnext).symm.trans h; exact hs

/-- Settles O34: the three loops of the cascade, each block by block, with its last value. -/
theorem legacyEncryptStages : Obligations.LegacyEncryptStages := by
  intro d s hm hk m
  let t1 := cbcEncryptLoop (Config.params.desE s.k1) s.senc1 m
  let t2 := cbcDecryptLoop (Config.params.desD s.k2) s.sdec2 t1.1
  let t3 := cbcEncryptLoop (Config.params.desE s.k3) s.senc3 t2.1
  have h1 : t1.1.length = m.length := length_cbcEncryptLoop _ _ _
  have h2 : t2.1.length = m.length := (length_cbcDecryptLoop _ _ _).trans h1
  have h3 : t3.1.length = m.length := (length_cbcEncryptLoop _ _ _).trans h2
  exact ⟨t1.1, t2.1, t3.1, t1.2, t2.2, t3.2, h1, h2, h3,
    fun _ _ _ => cbcEncryptLoop_block _, fun _ _ _ => cbcDecryptLoop_block _, fun _ _ _ => cbcEncryptLoop_block _,
    cbcEncryptLoop_last _ _ _, cbcDecryptLoop_last _ _ _, cbcEncryptLoop_last _ _ _,
    exec_encrypt_legacy d ((legacyActive_iff s).mpr ⟨hm, hk⟩)⟩

/-- Settles O35: the three loops of the inverse cascade, each block by block, with its last value. -/
theorem legacyDecryptStages : Obligations.LegacyDecryptStages := by
  intro c s hm hk m
  let u3 := cbcDecryptLoop (Config.params.desD s.k3) s.sdec3 m
  let u2 := cbcEncryptLoop (Config.params.desE s.k2) s.senc2 u3.1
  let u1 := cbcDecryptLoop (Config.params.desD s.k1) s.sdec1 u2.1
  have h3 : u3.1.length = m.length := length_cbcDecryptLoop _ _ _
  have h2 : u2.1.length = m.length := (length_cbcEncryptLoop _ _ _).trans h3
  have h1 : u1.1.length = m.length := (length_cbcDecryptLoop _ _ _).trans h2
  exact ⟨u3.1, u2.1, u1.1, u3.2, u2.2, u1.2, h3, h2, h1,
    fun _ _ _ => cbcDecryptLoop_block _, fun _ _ _ => cbcEncryptLoop_block _, fun _ _ _ => cbcDecryptLoop_block _,
    cbcDecryptLoop_last _ _ _, cbcEncryptLoop_last _ _ _, cbcDecryptLoop_last _ _ _,
    exec_decrypt_legacy c ((legacyActive_iff s).mpr ⟨hm, hk⟩)⟩

/-- Settles O36: the serial loop, from the stage registers, is the three loops one after the other. -/
theorem blockSerialFormAgrees : Obligations.BlockSerialFormAgrees := by
  refine fun P m s => ⟨?_, ?_⟩
  · rw [serialEncryptBlocks, serialEncryptLoop_eq, legacyEncryptBlocks_eq]
  · rw [serialDecryptBlocks, serialDecryptLoop_eq, legacyDecryptBlocks_eq]

/-- Settles O37: both commands answer with a run of the stages, which neither reads nor writes the flags and the IVs. -/
theorem legacyIgnoresFlagsAndIvs : Obligations.LegacyIgnoresFlagsAndIvs := by
  intro d s p c v e x hm hk
  have hl : legacyActive s = true := (legacyActive_iff s).mpr ⟨hm, hk⟩
  have hl' := (legacyActive_setFlagsAndIvs s p c v e x).trans hl
  have henc := exec_encrypt_legacy d hl'
  have hdec := exec_decrypt_legacy d hl'
  rw [legacyEncrypt_setFlagsAndIvs] at henc
  rw [legacyDecrypt_setFlagsAndIvs] at hdec
  exact ⟨_, _, exec_encrypt_legacy d hl, henc, exec_decrypt_legacy d hl, hdec⟩

/-- Settles O39: on either side the chunks are one message, and from two fresh engines with one key the cascade inverts. -/
theorem legacySelfConsistency : Obligations.LegacySelfConsistency := by
  intro raw e d ps hraw hps
  obtain ⟨a, b, c, hkeys⟩ := deriveSubKeys_long hraw
  let e0 := e.legacyEngine a b c
  let d0 := d.legacyEngine a b c
  obtain ⟨e1, cs, henc, hcs⟩ := cascadeCommand_encrypt.session_chunks (s := e0) rfl hps
  refine ⟨e0, d0, e1, _, _, okResponses cs, session_legacyEngine hkeys e, session_legacyEngine hkeys d, henc,
    allOk_okResponses cs, fun qs hqs hcut => ?_⟩
  obtain ⟨d1, us, hdec, hus⟩ := cascadeCommand_decrypt.session_chunks (s := d0) rfl hqs
  refine ⟨d1, okResponses us, hdec, allOk_okResponses us, ?_⟩
  rw [outputs_okResponses] at hcut ⊢
  rw [hus, hcut, hcs, toBlocks_ofBlocks, legacyDecryptBlocks_legacyEncryptBlocks Config.params_inverse
    (s := e0) (s' := d0) ⟨rfl, rfl, rfl, rfl⟩ rfl rfl rfl, ofBlocks_toBlocks _ (length_flatten_aligned hps)]

end

section
/-! The exceptions (`60_exceptions.md`): the rule of a transaction, legal or not, the status it ends with, and the causes of an
error (R161), each with its exact condition. -/

namespace Sys2Proof.Machine

/-! ## The rule of a transaction -/

/-- What a transaction computes before it ends: `ERR_ILLEGAL` from decoding, or the rule of the decoded command (R167). -/
def transactionRule (c : Command) (s : State) : Result :=
  match decode c with
  | .ok i => bodyOf i s
  | .error _ => .error .illegal

/-- Every transaction is the completion of its rule (R160). -/
theorem runCommand_eq_complete (c : Command) (s : State) : runCommand c s = complete s (transactionRule c s) := by
  cases hd : decode c with
  | ok i => rw [runCommand_of_decode_ok hd, exec_eq_complete, transactionRule, hd]
  | error e => rw [runCommand_of_decode_error hd, transactionRule, hd, complete_error]

/-! ## The status of a completion -/

theorem CmdError.code_inj {e e' : CmdError} : e.code = e'.code ↔ e = e' := by
  cases e <;> cases e' <;> decide

theorem CmdError.code_ne_statusOk (e : CmdError) : e.code ≠ statusOk := by cases e <;> decide

/-- The status names the error that the rule raised, and is `OK` when it raised none (R78, R161). -/
theorem complete_status (s : State) (b : Result) : ∃ t r, complete s b = .next t ∧ t.response = some r ∧
    (∀ e : CmdError, r.status = e.code ↔ b = .error e) ∧ r.status ∈ [(0x00 : Byte), 0x01, 0x02, 0x03, 0x04] := by
  rcases complete_cases s b with ⟨t, out, rfl, hn⟩ | ⟨e, rfl, hn⟩
  · exact ⟨_, _, hn, rfl, fun e => ⟨fun h => absurd h.symm e.code_ne_statusOk, nofun⟩, by simp [statusOk]⟩
  · refine ⟨_, _, hn, rfl, fun e' => CmdError.code_inj.trans ⟨congrArg _, Except.error.inj⟩, ?_⟩
    cases e <;> decide

/-! ## The causes -/

/-- Which error a legal command raises, cause by cause (R163 to R165). -/
inductive Raises (s : State) : Instr → CmdError → Prop where
  | encryptWithoutKey (data : Bytes) (nokey : s.keyclass = .none) : Raises s (.encrypt data) .nokey
  | decryptWithoutKey (data : Bytes) (nokey : s.keyclass = .none) : Raises s (.decrypt data) .nokey
  | ivLength (iv : Bytes) (other : iv.length ≠ 8) : Raises s (.setiv iv) .ivlen
  | badPadding (data : Bytes) (key : s.keyclass ≠ .none) (applies : paddingApplies s = true)
      (fails : unpad Config.padPolicy (decryptBuffer Config.params data s).2 = .error .pad) : Raises s (.decrypt data) .pad

/-- Where padding applies and `unpad` fails, `DECRYPT` ends with `ERR_PAD` (R136, R165). -/
theorem decryptBody_badPadding {P : Params} {d : Bytes} {s : State} (hk : s.keyclass ≠ .none)
    (hp : paddingApplies s = true) (hu : unpad P.padPolicy (decryptBuffer P d s).2 = .error .pad) :
    decryptBody P d s = .error .pad := by
  obtain ⟨hpaden, hl⟩ : s.paden = true ∧ legacyActive s = false := by simpa [paddingApplies] using hp
  rw [decryptBody_padded _ _ hk hl hpaden, hu]
  rfl

/-- The rule of a command raises exactly the error whose cause is present. -/
theorem bodyOf_error_iff {i : Instr} {s : State} {e : CmdError} : bodyOf i s = .error e ↔ Raises s i e := by
  constructor
  · intro h
    cases i with
    | encrypt data =>
      obtain ⟨rfl, hk⟩ := encryptBody_error h
      exact .encryptWithoutKey data hk
    | decrypt data =>
      rcases decryptBody_error h with ⟨rfl, hk⟩ | ⟨rfl, hk, hp, hu⟩
      · exact .decryptWithoutKey data hk
      · exact .badPadding data hk hp hu
    | setiv iv =>
      obtain ⟨rfl, hl⟩ := setivBody_error h
      exact .ivLength iv hl
    | _ => cases h
  · intro h
    cases h with
    | encryptWithoutKey data nokey => exact encryptBody_nokey _ data nokey
    | decryptWithoutKey data nokey => exact decryptBody_nokey _ data nokey
    | ivLength iv other => exact setivBody_of_other other s
    | badPadding data key applies fails => exact decryptBody_badPadding key applies fails

section Transaction

variable {c : Command} {s : State}

/-- `ERR_ILLEGAL` is the decoder's alone: no legal command raises it (R162, R167). -/
theorem transactionRule_illegal_iff : transactionRule c s = .error .illegal ↔ ∃ e, decode c = .error e := by
  unfold transactionRule
  cases decode c with
  | ok i => exact ⟨fun h => absurd rfl (bodyOf_error_ne_illegal h), nofun⟩
  | error e => exact ⟨fun _ => ⟨e, rfl⟩, fun _ => rfl⟩

/-- Every other error is raised by the decoded command (R167). -/
theorem transactionRule_error_iff {e : CmdError} (he : e ≠ .illegal) :
    transactionRule c s = .error e ↔ ∃ i, decode c = .ok i ∧ Raises s i e := by
  unfold transactionRule
  cases decode c with
  | ok i => simp [bodyOf_error_iff]
  | error e' => simp [he.symm]

end Transaction

end Sys2Proof.Machine

open Sys2Proof Sys2Proof.Machine

/-! ## The obligations -/

/-- Settles O51: the status names the error of the rule, and the rule raises it exactly when its cause is present. -/
theorem errorCauses : Obligations.ErrorCauses := by
  intro c s
  obtain ⟨t, r, hn, hr, hstatus, hrange⟩ := complete_status s (transactionRule c s)
  have hlegal (e : CmdError) (he : e ≠ .illegal) := (hstatus e).trans (transactionRule_error_iff he)
  refine ⟨t, r, (runCommand_eq_complete c s).trans hn, hr, (hstatus .illegal).trans transactionRule_illegal_iff,
    (hlegal .nokey nofun).trans ⟨?nokey, ?withoutKey⟩, (hlegal .ivlen nofun).trans ⟨?ivlen, ?otherLength⟩,
    (hlegal .pad nofun).trans ⟨?pad, ?badPadding⟩, hrange⟩
  case nokey =>
    rintro ⟨i, hd, hraises⟩
    cases hraises with
    | encryptWithoutKey data hk => exact ⟨hk, .inl ⟨data, hd⟩⟩
    | decryptWithoutKey data hk => exact ⟨hk, .inr ⟨data, hd⟩⟩
  case withoutKey =>
    rintro ⟨hk, ⟨data, hd⟩ | ⟨data, hd⟩⟩
    exacts [⟨_, hd, .encryptWithoutKey data hk⟩, ⟨_, hd, .decryptWithoutKey data hk⟩]
  case ivlen =>
    rintro ⟨i, hd, hraises⟩
    cases hraises with
    | ivLength iv hl => exact ⟨iv, hd, hl⟩
  case otherLength =>
    rintro ⟨iv, hd, hl⟩
    exact ⟨_, hd, .ivLength iv hl⟩
  case pad =>
    rintro ⟨i, hd, hraises⟩
    cases hraises with
    | badPadding data hk hp hu => exact ⟨data, hd, hk, hp, hu⟩
  case badPadding =>
    rintro ⟨data, hd, hk, hp, hu⟩
    exact ⟨_, hd, .badPadding data hk hp hu⟩

/-- Settles O50: a completion whose status is not `OK` is the raising of an error, on the state before. -/
theorem errorsAreAtomic : Obligations.ErrorsAreAtomic := by
  intro c s t r hrun hr hne
  rw [runCommand_eq_complete] at hrun
  rcases complete_cases s (transactionRule c s) with ⟨u, out, -, hn⟩ | ⟨e, -, hn⟩
  · cases hn.symm.trans hrun; cases hr; exact absurd rfl hne
  · cases hn.symm.trans hrun; cases hr; exact ⟨rfl, rfl⟩

/-- Settles O49: each kind of step takes the first event, and a command leaves the later ones alone. -/
theorem stepAlwaysContinues : Obligations.StepAlwaysContinues := by
  intro s
  rcases step_cases s with ⟨hp, hidle⟩ | ⟨a, es, hp, hreset⟩ | ⟨c, es, e, hp, -, hillegal⟩ | ⟨c, es, i, hp, -, hexec⟩
  · exact ⟨s, hidle, by rw [hp, List.tail_nil]⟩
  · exact ⟨_, hreset, by rw [hp]; rfl⟩
  · exact ⟨_, hillegal, by rw [hp]; rfl⟩
  · obtain ⟨t, r, hn, -, -, -, hkeep, -⟩ := everyCommandCompletes i (s.setPending es)
    exact ⟨t, hexec.trans hn, by rw [hkeep, hp]; rfl⟩

/-- Settles O27: both rules raise `ERR_NOKEY` before they look at the payload. -/
theorem dataCommandsNeedKey : Obligations.DataCommandsNeedKey := fun d s hk =>
  ⟨(exec_eq_complete (.encrypt d) s).trans (congrArg (complete s) (encryptBody_nokey _ d hk)),
    (exec_eq_complete (.decrypt d) s).trans (congrArg (complete s) (decryptBody_nokey _ d hk))⟩

end
